-- ==== Sys2Proof/Word.lean ====
section
/-! DEFINITION. The word types of the block and their plainest arithmetic (00_scope.md R8, R15, R16). -/

namespace Sys2Proof

/-- A data register or a byte of memory, 8 bits (R8, V_WIDTH). -/
abbrev Byte := BitVec 8

/-- An address, the index register or the program counter, 12 bits; arithmetic on it wraps
modulo 4096, which is the masking of R51 (R8, ADDR_BITS, I_WIDTH, PC_WIDTH). -/
abbrev Addr := BitVec 12

/-- An instruction word, 16 bits (R8, INSTR_WIDTH). -/
abbrev Word := BitVec 16

/-- The number of a data register, V0..VF (R8, NUM_V). -/
abbrev RegIdx := Fin 16

/-- The number of a key, 0x0..0xF (R8, NUM_KEYS). -/
abbrev KeyIdx := Fin 16

/-- `b2v(c)` of R16: 1 if the condition holds, else 0. -/
def b2v (c : Bool) : Byte := if c then 1 else 0

end Sys2Proof
end

