-- ==== Sys2Proof/Config.lean ====
section
/-! DEFINITION. The parameters of the block (00_scope.md R9 to R13) and its free inputs (10_state.md R41 to R44). -/

namespace Sys2Proof

/-- P_OP0_DECODE (00_scope.md R13, 30_encoding.md R74). -/
inductive Op0Decode where
  | kkOnly
  | fullWord
  deriving DecidableEq, Repr

/-- P_VF_NONARITH (00_scope.md R13, 41_load_alu.md R132). -/
inductive VfNonarith where
  | clearAll
  | clearLogic
  | preserve
  deriving DecidableEq, Repr

/-- The parameters of the step. They are fixed before reset and no cycle changes them (10_state.md R35). -/
structure Config where
  /-- Quirk: 8xy6 and 8xyE read Vy (R12). -/
  shiftUsesSecondaryRegister : Bool
  /-- Quirk: Fx1E writes VF with the 12-bit overflow (R12). -/
  addIndexSetsOverflowFlag : Bool
  /-- Quirk: Fx55 and Fx65 add x+1 to I afterwards (R12). -/
  bulkRegisterOpsIncrementIndex : Bool
  /-- P_OP0_DECODE (R13). -/
  op0Decode : Op0Decode
  /-- P_VF_NONARITH (R13). -/
  vfNonarith : VfNonarith
  /-- STACK_LIMIT: none or a positive count (R11). -/
  stackLimit : Option Nat
  /-- FONT_BASE (R9). -/
  fontBase : Addr
  /-- FONT_GLYPHS: 16 glyphs of 5 bytes (R10). -/
  fontGlyphs : Vector (Vector Byte 5) 16
  deriving DecidableEq, Repr

/-- The default glyphs, row for row the table of 10_state.md R31. -/
def defaultGlyphs : Vector (Vector Byte 5) 16 :=
  #v[#v[0xF0, 0x90, 0x90, 0x90, 0xF0],
     #v[0x20, 0x60, 0x20, 0x20, 0x70],
     #v[0xF0, 0x10, 0xF0, 0x80, 0xF0],
     #v[0xF0, 0x10, 0xF0, 0x10, 0xF0],
     #v[0x90, 0x90, 0xF0, 0x10, 0x10],
     #v[0xF0, 0x80, 0xF0, 0x10, 0xF0],
     #v[0xF0, 0x80, 0xF0, 0x90, 0xF0],
     #v[0xF0, 0x10, 0x20, 0x40, 0x40],
     #v[0xF0, 0x90, 0xF0, 0x90, 0xF0],
     #v[0xF0, 0x90, 0xF0, 0x10, 0xF0],
     #v[0xF0, 0x90, 0xF0, 0x90, 0x90],
     #v[0xE0, 0x90, 0xE0, 0x90, 0xE0],
     #v[0xF0, 0x80, 0x80, 0x80, 0xF0],
     #v[0xE0, 0x90, 0x90, 0x90, 0xE0],
     #v[0xF0, 0x80, 0xF0, 0x80, 0xF0],
     #v[0xF0, 0x80, 0xF0, 0x80, 0x80]]

/-- The default configuration (R9 to R13). -/
def Config.default : Config where
  shiftUsesSecondaryRegister := true
  addIndexSetsOverflowFlag := false
  bulkRegisterOpsIncrementIndex := true
  op0Decode := .kkOnly
  vfNonarith := .clearAll
  stackLimit := none
  fontBase := 0x050
  fontGlyphs := defaultGlyphs

/-- What the inputs of one cycle are (10_state.md R41 to R44). -/
structure CycleInput where
  /-- `keys_in`: bit k is set when key k is down (R41). -/
  keys : BitVec 16
  /-- `key_edge_in`: the key-down edge of this cycle, if any (R42). -/
  edge : Option KeyIdx
  /-- `rnd_in`: this cycle's random byte (R43). -/
  rnd : Byte
  /-- `elapsed_ms_in`: milliseconds since the previous cycle (R44). -/
  elapsedMs : Nat
  deriving DecidableEq, Repr, Inhabited

/-- FREE VALUE. The inputs of cycle number `k` where the state's own schedule names none.
The spec lets them be anything the host drives (R41 to R44; log 2), so the constant has no body. -/
opaque Config.freeInput : Nat → CycleInput

end Sys2Proof
end

