-- ==== Sys2Proof/Syntax.lean ====
section
/-! DEFINITION. The 35 instructions of 30_encoding.md R77, one constructor per row of spec/opcode_table.json. -/

namespace Sys2Proof

/-- The instructions, in the order of R77. Operands are the fields of R71 that the row's pattern names.
CLS and RET keep the field x that the table gives them, though no effect depends on it (R79; log 8). -/
inductive Instr where
  /-- 00E0: CLS (R160); `x` is the field ignored under `kk_only`. -/
  | cls (x : RegIdx)
  /-- 00EE: RET (R102); `x` is the field ignored under `kk_only`. -/
  | ret (x : RegIdx)
  /-- 0nnn: SYS nnn (R101). -/
  | sys (nnn : Addr)
  /-- 1nnn: JP nnn (R103). -/
  | jp (nnn : Addr)
  /-- 2nnn: CALL nnn (R105). -/
  | call (nnn : Addr)
  /-- 3xkk: SE Vx, kk (R107). -/
  | seImm (x : RegIdx) (kk : Byte)
  /-- 4xkk: SNE Vx, kk (R108). -/
  | sneImm (x : RegIdx) (kk : Byte)
  /-- 5xy0: SE Vx, Vy (R109). -/
  | seReg (x y : RegIdx)
  /-- 6xkk: LD Vx, kk (R130). -/
  | ldImm (x : RegIdx) (kk : Byte)
  /-- 7xkk: ADD Vx, kk (R131). -/
  | addImm (x : RegIdx) (kk : Byte)
  /-- 8xy0: LD Vx, Vy (R134). -/
  | ldReg (x y : RegIdx)
  /-- 8xy1: OR Vx, Vy (R135). -/
  | orReg (x y : RegIdx)
  /-- 8xy2: AND Vx, Vy (R136). -/
  | andReg (x y : RegIdx)
  /-- 8xy3: XOR Vx, Vy (R137). -/
  | xorReg (x y : RegIdx)
  /-- 8xy4: ADD Vx, Vy (R138). -/
  | addReg (x y : RegIdx)
  /-- 8xy5: SUB Vx, Vy (R139). -/
  | sub (x y : RegIdx)
  /-- 8xy6: SHR Vx, Vy (R140). -/
  | shr (x y : RegIdx)
  /-- 8xy7: SUBN Vx, Vy (R141). -/
  | subn (x y : RegIdx)
  /-- 8xyE: SHL Vx, Vy (R142). -/
  | shl (x y : RegIdx)
  /-- 9xy0: SNE Vx, Vy (R110). -/
  | sneReg (x y : RegIdx)
  /-- Annn: LD I, nnn (R200). -/
  | ldI (nnn : Addr)
  /-- Bnnn: JP V0, nnn (R104). -/
  | jpV0 (nnn : Addr)
  /-- Cxkk: RND Vx, kk (R143). -/
  | rnd (x : RegIdx) (kk : Byte)
  /-- Dxyn: DRW Vx, Vy, n (R161). -/
  | drw (x y : RegIdx) (n : BitVec 4)
  /-- Ex9E: SKP Vx (R180). -/
  | skp (x : RegIdx)
  /-- ExA1: SKNP Vx (R181). -/
  | sknp (x : RegIdx)
  /-- Fx07: LD Vx, DT (R184). -/
  | ldFromDt (x : RegIdx)
  /-- Fx0A: LD Vx, K (R182). -/
  | ldK (x : RegIdx)
  /-- Fx15: LD DT, Vx (R185). -/
  | ldDt (x : RegIdx)
  /-- Fx18: LD ST, Vx (R186). -/
  | ldSt (x : RegIdx)
  /-- Fx1E: ADD I, Vx (R201). -/
  | addI (x : RegIdx)
  /-- Fx29: LD F, Vx (R202). -/
  | ldF (x : RegIdx)
  /-- Fx33: LD B, Vx (R203). -/
  | ldB (x : RegIdx)
  /-- Fx55: LD [I], Vx (R204). -/
  | storeRegs (x : RegIdx)
  /-- Fx65: LD Vx, [I] (R205). -/
  | loadRegs (x : RegIdx)
  deriving DecidableEq, Repr

end Sys2Proof
end

