-- ==== Sys2Proof/WellFormed.lean ====
section
/-! DEFINITION. Which instructions some word stands for. Operand ranges are in the types; only op 0 has checks
left, because its rows overlap (30_encoding.md R74, R75, R77). -/

namespace Sys2Proof

/-- Does CLS or RET with this ignored field x exist? Under `full_word` only x = 0 does (R74). -/
def Op0Decode.allowsIgnoredX (c : Op0Decode) (x : RegIdx) : Bool :=
  match c with
  | .kkOnly => true
  | .fullWord => x == 0

/-- Does this op-0 word, with this nnn, belong to SYS? It does when it selects neither CLS nor RET (R75, R76). -/
def Op0Decode.isSys (c : Op0Decode) (nnn : Addr) : Bool :=
  match c with
  | .kkOnly => nnn.extractLsb' 0 8 != 0xE0 && nnn.extractLsb' 0 8 != 0xEE
  | .fullWord => nnn != 0x0E0 && nnn != 0x0EE

/-- The instruction is one that dispatch can select under this P_OP0_DECODE. -/
def Instr.wellFormed (c : Op0Decode) : Instr → Bool
  | .cls x => c.allowsIgnoredX x
  | .ret x => c.allowsIgnoredX x
  | .sys nnn => c.isSys nnn
  | .jp _ => true
  | .call _ => true
  | .seImm _ _ => true
  | .sneImm _ _ => true
  | .seReg _ _ => true
  | .ldImm _ _ => true
  | .addImm _ _ => true
  | .ldReg _ _ => true
  | .orReg _ _ => true
  | .andReg _ _ => true
  | .xorReg _ _ => true
  | .addReg _ _ => true
  | .sub _ _ => true
  | .shr _ _ => true
  | .subn _ _ => true
  | .shl _ _ => true
  | .sneReg _ _ => true
  | .ldI _ => true
  | .jpV0 _ => true
  | .rnd _ _ => true
  | .drw _ _ _ => true
  | .skp _ => true
  | .sknp _ => true
  | .ldFromDt _ => true
  | .ldK _ => true
  | .ldDt _ => true
  | .ldSt _ => true
  | .addI _ => true
  | .ldF _ => true
  | .ldB _ => true
  | .storeRegs _ => true
  | .loadRegs _ => true

end Sys2Proof
end

