-- ==== Sys2Proof/Decode.lean ====
section
/-! DEFINITION. The decoder of 30_encoding.md (fields R71, dispatch R76), the opcode map of R77 as data, and the
encoder. Decoding is total: a word without a handler is rejected by the name of its op (R78). -/

namespace Sys2Proof

/-- The nibble of `w` whose lowest bit is bit `lo`, as a register number. -/
def nibble (w : Word) (lo : Nat) : Fin 16 := (w.extractLsb' lo 4).toFin

/-- The six fields of an instruction word (R71). -/
structure Fields where
  op : Fin 16
  x : RegIdx
  y : RegIdx
  n : BitVec 4
  kk : Byte
  nnn : Addr
  deriving DecidableEq, Repr

/-- `Decode(w)` of R71: the six fields, at the bits R71 gives them. -/
def decodeFields (w : Word) : Fields where
  op := nibble w 12
  x := nibble w 8
  y := nibble w 4
  n := w.extractLsb' 0 4
  kk := w.extractLsb' 0 8
  nnn := w.extractLsb' 0 12

/-- Why bytes are no instruction: too few of them, or an unhandled word, named by its op (the five rows of R78). -/
inductive DecodeError where
  | truncated
  | unhandled5 (n : BitVec 4)
  | unhandled8 (n : BitVec 4)
  | unhandled9 (n : BitVec 4)
  | unhandledE (kk : Byte)
  | unhandledF (kk : Byte)
  deriving DecidableEq, Repr

/-- Op 0 (R74, R76): CLS, RET, and SYS for all the rest. -/
def dispatch0 (c : Op0Decode) (f : Fields) : Instr :=
  match c with
  | .kkOnly =>
    if f.kk = 0xE0 then .cls f.x else if f.kk = 0xEE then .ret f.x else .sys f.nnn
  | .fullWord =>
    if f.nnn = 0x0E0 then .cls f.x else if f.nnn = 0x0EE then .ret f.x else .sys f.nnn

/-- Op 8 (R76): the secondary discriminant is n. -/
def dispatch8 (f : Fields) : Except DecodeError Instr :=
  match f.n.toNat with
  | 0x0 => .ok (.ldReg f.x f.y)
  | 0x1 => .ok (.orReg f.x f.y)
  | 0x2 => .ok (.andReg f.x f.y)
  | 0x3 => .ok (.xorReg f.x f.y)
  | 0x4 => .ok (.addReg f.x f.y)
  | 0x5 => .ok (.sub f.x f.y)
  | 0x6 => .ok (.shr f.x f.y)
  | 0x7 => .ok (.subn f.x f.y)
  | 0xE => .ok (.shl f.x f.y)
  | _ => .error (.unhandled8 f.n)

/-- Op E (R76): the secondary discriminant is kk. -/
def dispatchE (f : Fields) : Except DecodeError Instr :=
  if f.kk = 0x9E then .ok (.skp f.x)
  else if f.kk = 0xA1 then .ok (.sknp f.x)
  else .error (.unhandledE f.kk)

/-- Op F (R76): the secondary discriminant is kk. -/
def dispatchF (f : Fields) : Except DecodeError Instr :=
  if f.kk = 0x07 then .ok (.ldFromDt f.x)
  else if f.kk = 0x0A then .ok (.ldK f.x)
  else if f.kk = 0x15 then .ok (.ldDt f.x)
  else if f.kk = 0x18 then .ok (.ldSt f.x)
  else if f.kk = 0x1E then .ok (.addI f.x)
  else if f.kk = 0x29 then .ok (.ldF f.x)
  else if f.kk = 0x33 then .ok (.ldB f.x)
  else if f.kk = 0x55 then .ok (.storeRegs f.x)
  else if f.kk = 0x65 then .ok (.loadRegs f.x)
  else .error (.unhandledF f.kk)

/-- `Dispatch(cfg, w)` of R76, on the fields of w. The last arm is op 0xF: an op is below 16. -/
def dispatch (c : Op0Decode) (f : Fields) : Except DecodeError Instr :=
  match f.op.val with
  | 0x0 => .ok (dispatch0 c f)
  | 0x1 => .ok (.jp f.nnn)
  | 0x2 => .ok (.call f.nnn)
  | 0x3 => .ok (.seImm f.x f.kk)
  | 0x4 => .ok (.sneImm f.x f.kk)
  | 0x5 => if f.n = 0x0 then .ok (.seReg f.x f.y) else .error (.unhandled5 f.n)
  | 0x6 => .ok (.ldImm f.x f.kk)
  | 0x7 => .ok (.addImm f.x f.kk)
  | 0x8 => dispatch8 f
  | 0x9 => if f.n = 0x0 then .ok (.sneReg f.x f.y) else .error (.unhandled9 f.n)
  | 0xA => .ok (.ldI f.nnn)
  | 0xB => .ok (.jpV0 f.nnn)
  | 0xC => .ok (.rnd f.x f.kk)
  | 0xD => .ok (.drw f.x f.y f.n)
  | 0xE => dispatchE f
  | _ => dispatchF f

/-- The instruction a word stands for, or the name of why it has none. -/
def decodeWord (c : Op0Decode) (w : Word) : Except DecodeError Instr :=
  dispatch c (decodeFields w)

/-- Decoding from bytes, high byte first (R52): the instruction and the bytes after it. -/
def decodeBytes (c : Op0Decode) : List Byte → Except DecodeError (Instr × List Byte)
  | hi :: lo :: rest =>
    match decodeWord c (hi ++ lo) with
    | .ok i => .ok (i, rest)
    | .error e => .error e
  | [] => .error .truncated
  | [_] => .error .truncated

/-- A word from an op nibble and the 12-bit field nnn. -/
def wordNnn (op : BitVec 4) (nnn : Addr) : Word := op ++ nnn

/-- A word from an op nibble and the fields x and kk. -/
def wordXkk (op : BitVec 4) (x : RegIdx) (kk : Byte) : Word :=
  op ++ (BitVec.ofFin x : BitVec 4) ++ kk

/-- A word from an op nibble and the fields x, y and n. -/
def wordXyn (op : BitVec 4) (x y : RegIdx) (n : BitVec 4) : Word :=
  op ++ (BitVec.ofFin x : BitVec 4) ++ (BitVec.ofFin y : BitVec 4) ++ n

/-- The word of an instruction, from the patterns of R77. -/
def encode : Instr → Word
  | .cls x => wordXkk 0x0 x 0xE0
  | .ret x => wordXkk 0x0 x 0xEE
  | .sys nnn => wordNnn 0x0 nnn
  | .jp nnn => wordNnn 0x1 nnn
  | .call nnn => wordNnn 0x2 nnn
  | .seImm x kk => wordXkk 0x3 x kk
  | .sneImm x kk => wordXkk 0x4 x kk
  | .seReg x y => wordXyn 0x5 x y 0x0
  | .ldImm x kk => wordXkk 0x6 x kk
  | .addImm x kk => wordXkk 0x7 x kk
  | .ldReg x y => wordXyn 0x8 x y 0x0
  | .orReg x y => wordXyn 0x8 x y 0x1
  | .andReg x y => wordXyn 0x8 x y 0x2
  | .xorReg x y => wordXyn 0x8 x y 0x3
  | .addReg x y => wordXyn 0x8 x y 0x4
  | .sub x y => wordXyn 0x8 x y 0x5
  | .shr x y => wordXyn 0x8 x y 0x6
  | .subn x y => wordXyn 0x8 x y 0x7
  | .shl x y => wordXyn 0x8 x y 0xE
  | .sneReg x y => wordXyn 0x9 x y 0x0
  | .ldI nnn => wordNnn 0xA nnn
  | .jpV0 nnn => wordNnn 0xB nnn
  | .rnd x kk => wordXkk 0xC x kk
  | .drw x y n => wordXyn 0xD x y n
  | .skp x => wordXkk 0xE x 0x9E
  | .sknp x => wordXkk 0xE x 0xA1
  | .ldFromDt x => wordXkk 0xF x 0x07
  | .ldK x => wordXkk 0xF x 0x0A
  | .ldDt x => wordXkk 0xF x 0x15
  | .ldSt x => wordXkk 0xF x 0x18
  | .addI x => wordXkk 0xF x 0x1E
  | .ldF x => wordXkk 0xF x 0x29
  | .ldB x => wordXkk 0xF x 0x33
  | .storeRegs x => wordXkk 0xF x 0x55
  | .loadRegs x => wordXkk 0xF x 0x65

/-- The two bytes of a word as memory holds it, high byte first (R52). -/
def wordBytes (w : Word) : List Byte := [w.extractLsb' 8 8, w.extractLsb' 0 8]

/-- The bytes of an instruction. -/
def encodeBytes (i : Instr) : List Byte := wordBytes (encode i)

/-- One row of the opcode map of R77: a word selects the handler when `w & mask = pattern`. -/
structure OpcodeRow where
  mask : Word
  pattern : Word
  build : Fields → Instr

/-- Does the word match the row? -/
def OpcodeRow.selects (r : OpcodeRow) (w : Word) : Bool := w &&& r.mask == r.pattern

/-- The mask of the CLS and RET rows (the note under the table of R77). -/
def Op0Decode.mask : Op0Decode → Word
  | .kkOnly => 0xF0FF
  | .fullWord => 0xFFFF

/-- Rows 1 to 3 of R77: op 0. Row 3 takes only words that rows 1 and 2 do not. -/
def opcodeRows0 (c : Op0Decode) : List OpcodeRow :=
  [⟨c.mask, 0x00E0, fun f => .cls f.x⟩,
   ⟨c.mask, 0x00EE, fun f => .ret f.x⟩,
   ⟨0xF000, 0x0000, fun f => .sys f.nnn⟩]

/-- Rows 4 to 10 and 21 to 24 of R77 and the rows of ops 5 and 9: every op with one handler. -/
def opcodeRowsOne : List OpcodeRow :=
  [⟨0xF000, 0x1000, fun f => .jp f.nnn⟩,
   ⟨0xF000, 0x2000, fun f => .call f.nnn⟩,
   ⟨0xF000, 0x3000, fun f => .seImm f.x f.kk⟩,
   ⟨0xF000, 0x4000, fun f => .sneImm f.x f.kk⟩,
   ⟨0xF00F, 0x5000, fun f => .seReg f.x f.y⟩,
   ⟨0xF000, 0x6000, fun f => .ldImm f.x f.kk⟩,
   ⟨0xF000, 0x7000, fun f => .addImm f.x f.kk⟩,
   ⟨0xF00F, 0x9000, fun f => .sneReg f.x f.y⟩,
   ⟨0xF000, 0xA000, fun f => .ldI f.nnn⟩,
   ⟨0xF000, 0xB000, fun f => .jpV0 f.nnn⟩,
   ⟨0xF000, 0xC000, fun f => .rnd f.x f.kk⟩,
   ⟨0xF000, 0xD000, fun f => .drw f.x f.y f.n⟩]

/-- Rows 11 to 19 of R77: op 8. -/
def opcodeRows8 : List OpcodeRow :=
  [⟨0xF00F, 0x8000, fun f => .ldReg f.x f.y⟩,
   ⟨0xF00F, 0x8001, fun f => .orReg f.x f.y⟩,
   ⟨0xF00F, 0x8002, fun f => .andReg f.x f.y⟩,
   ⟨0xF00F, 0x8003, fun f => .xorReg f.x f.y⟩,
   ⟨0xF00F, 0x8004, fun f => .addReg f.x f.y⟩,
   ⟨0xF00F, 0x8005, fun f => .sub f.x f.y⟩,
   ⟨0xF00F, 0x8006, fun f => .shr f.x f.y⟩,
   ⟨0xF00F, 0x8007, fun f => .subn f.x f.y⟩,
   ⟨0xF00F, 0x800E, fun f => .shl f.x f.y⟩]

/-- Rows 25 to 35 of R77: ops E and F. -/
def opcodeRowsEF : List OpcodeRow :=
  [⟨0xF0FF, 0xE09E, fun f => .skp f.x⟩,
   ⟨0xF0FF, 0xE0A1, fun f => .sknp f.x⟩,
   ⟨0xF0FF, 0xF007, fun f => .ldFromDt f.x⟩,
   ⟨0xF0FF, 0xF00A, fun f => .ldK f.x⟩,
   ⟨0xF0FF, 0xF015, fun f => .ldDt f.x⟩,
   ⟨0xF0FF, 0xF018, fun f => .ldSt f.x⟩,
   ⟨0xF0FF, 0xF01E, fun f => .addI f.x⟩,
   ⟨0xF0FF, 0xF029, fun f => .ldF f.x⟩,
   ⟨0xF0FF, 0xF033, fun f => .ldB f.x⟩,
   ⟨0xF0FF, 0xF055, fun f => .storeRegs f.x⟩,
   ⟨0xF0FF, 0xF065, fun f => .loadRegs f.x⟩]

/-- The opcode map of R77 as data: 35 rows of mask, match and handler. -/
def opcodeMap (c : Op0Decode) : List OpcodeRow :=
  opcodeRows0 c ++ opcodeRowsOne ++ opcodeRows8 ++ opcodeRowsEF

/-- The word that spec/opcode_table.json numbers `w` (bits above `nbits` are 0). -/
def tableWord (nbits w : Nat) : Word := BitVec.ofNat 16 (w % 2 ^ nbits)

/-- The instruction the decoder reads from a table word laid out in memory, under the default P_OP0_DECODE. -/
def decodeTableWord (nbits w : Nat) : Option Instr :=
  match decodeBytes Config.default.op0Decode (wordBytes (tableWord nbits w)) with
  | .ok (i, _) => some i
  | .error _ => none

end Sys2Proof
end

