-- ==== Sys2Proof/Machine/State.lean ====
section
/-! DEFINITION. The machine's state (10_state.md R20 to R35), the reasons a step can stop, and the state after reset. -/

namespace Sys2Proof.Machine

/-- The kinds of fatal error (60_exceptions.md R221). -/
inductive FaultKind where
  | stackUnderflow
  | stackOverflow
  deriving DecidableEq, Repr

/-- The fatal-error record: the kind and the address of the word that faulted (10_state.md R33). -/
structure FaultRecord where
  kind : FaultKind
  addr : Addr
  deriving DecidableEq, Repr

/-- Why the machine stops. -/
inductive Fault where
  /-- Raised by `step` alone, in a state whose `fault` element is set: the block then has no step
  (30_encoding.md R87, 60_exceptions.md R225). Safe: nothing goes on where the block does not. -/
  | halted (r : FaultRecord)
  deriving DecidableEq, Repr

/-- Why an instruction has no meaning. -/
inductive Refusal where
  /-- Raised by an arm of `exec` whose instruction has no meaning yet. No arm does. Safe. -/
  | notModelled (mnemonic : String)
  deriving DecidableEq, Repr

/-- Memory as the cells that differ from what an unlisted address reads as (`Config.resetByte`, log 7),
addresses strictly rising (20_memory.md R50). -/
abbrev Memory := List Host.Cell

/-- The display buffer, `disp[c][r]`: 64 columns of 32 pixels, true meaning on (10_state.md R27). -/
abbrev Display := Vector (Vector Bool 32) 64

/-- Every pixel off (42_display.md R160). -/
def Display.clear : Display := Vector.replicate 64 (Vector.replicate 32 false)

/-- The state of the block. The first group is the spec's state, the second the one-cycle outputs of R45,
the third the model's own fields: the configuration (log 1) and what drives the inputs (log 2, log 3). -/
structure State where
  /-- V0..VF (R21); VF is `regs[15]` (R22). -/
  regs : Vector Byte 16
  /-- The index register I (R23). -/
  i : Addr
  /-- The program counter (R24). -/
  pc : Addr
  /-- The call stack, top first (R25, log 9). -/
  stack : List Addr
  /-- The delay timer DT (R26). -/
  dt : Byte
  /-- The sound timer ST (R26). -/
  st : Byte
  /-- The timer accumulator, in units of 1/60 ms (R32). -/
  acc : Nat
  /-- The display buffer (R27). -/
  disp : Display
  /-- The key-down flags: bit k is key k (R28). -/
  keypad : BitVec 16
  /-- The key-down edge of this cycle (R29). -/
  lastKey : Option KeyIdx
  /-- Memory (R20). -/
  mem : Memory
  /-- The fatal-error record (R33). -/
  fault : Option FaultRecord
  /-- The number of unhandled words so far (R34). -/
  unhandledCount : Nat
  /-- Output `display_changed` of the latest cycle (R45). -/
  displayChanged : Bool
  /-- Output `warn_unhandled` of the latest cycle (R45). -/
  warnUnhandled : Bool
  /-- Output `waiting_for_key` of the latest cycle (R45). -/
  waitingForKey : Bool
  /-- The parameters (R35); no step writes them. -/
  cfg : Config
  /-- The inputs of the coming cycles that are fixed already, the next cycle's first. -/
  inputs : List CycleInput
  /-- The number of cycles so far, the argument of the free value `Config.freeInput`. -/
  cycle : Nat
  deriving DecidableEq, Repr

/-- The machine right after reset (10_state.md R38, 70_reset_and_hazards.md R260), with the default
configuration and the empty ROM image, which R262 accepts. A ROM image is loaded by `construct`. -/
def State.reset : State where
  regs := Vector.replicate 16 0
  i := 0x000
  pc := 0x200
  stack := []
  dt := 0
  st := 0
  acc := 0
  disp := Display.clear
  keypad := 0
  lastKey := none
  mem := []
  fault := none
  unhandledCount := 0
  displayChanged := false
  warnUnhandled := false
  waitingForKey := false
  cfg := Config.default
  inputs := []
  cycle := 0

end Sys2Proof.Machine
end

