-- ==== Sys2Proof/Machine/Ops.lean ====
section
/-! DEFINITION. The named operations over memory, registers, stack, display, timers and the fault record that
the meanings are written with (00_scope.md R16). -/

namespace Sys2Proof

/-- Byte `k` of the font (10_state.md R30): glyph k/5, row k mod 5. -/
def Config.fontByte (c : Config) (k : Fin 80) : Byte :=
  (c.fontGlyphs[k.val / 5]'(by omega))[k.val % 5]'(by omega)

/-- WHAT AN UNLISTED ADDRESS READS AS: the reset content of the address map without a ROM (20_memory.md R56):
the font at FONT_BASE, 0x00 everywhere else (log 7). -/
def Config.resetByte (c : Config) (a : Nat) : Byte :=
  if h : c.fontBase.toNat ≤ a ∧ a < c.fontBase.toNat + 80 then
    c.fontByte ⟨a - c.fontBase.toNat, by omega⟩
  else 0

/-- The construction checks on a configuration: FONT_BASE + 80 ≤ 0x200 (00_scope.md R9), and a STACK_LIMIT
that is none or positive (R11). -/
def Config.valid (c : Config) : Bool :=
  decide (c.fontBase.toNat + 80 ≤ 0x200) && c.stackLimit != some 0

namespace Machine

/-- The byte listed for an address, if any. -/
def Memory.lookup (a : Nat) : Memory → Option Byte
  | [] => none
  | (b, v) :: m => if a = b then some v else Memory.lookup a m

/-- Lists `v` at `a`, in place of what is listed there, keeping the addresses rising. -/
def Memory.insert (a : Nat) (v : Byte) : Memory → Memory
  | [] => [(a, v)]
  | (b, w) :: m =>
    if a < b then (a, v) :: (b, w) :: m
    else if a = b then (a, v) :: m
    else (b, w) :: Memory.insert a v m

/-- Lists nothing at `a`. -/
def Memory.erase (a : Nat) (m : Memory) : Memory := m.filter (fun c => c.1 != a)

/-- Writes `v` at `a`, where an unlisted address reads as `bg`: a byte equal to that is not listed. -/
def Memory.write (bg : Nat → Byte) (m : Memory) (a : Nat) (v : Byte) : Memory :=
  if v = bg a then m.erase a else m.insert a v

/-- The canonical form: addresses strictly rising and below 4096, no entry equal to what an unlisted
address reads as. -/
def Memory.wf (bg : Nat → Byte) : Memory → Bool
  | [] => true
  | (a, v) :: m =>
    decide (a < 4096) && v != bg a && (m.all fun c => decide (a < c.1)) && Memory.wf bg m

/-- `MemRead(a, 1)` of 00_scope.md R16. -/
def State.memRead (s : State) (a : Addr) : Byte :=
  (Memory.lookup a.toNat s.mem).getD (s.cfg.resetByte a.toNat)

/-- The state with another memory. -/
def State.setMem (s : State) (m : Memory) : State := { s with mem := m }

/-- `MemWrite(a, 1, v)` of R16. Every address is writable (20_memory.md R57). -/
def State.memWrite (s : State) (a : Addr) (v : Byte) : State :=
  s.setMem (s.mem.write s.cfg.resetByte a.toNat v)

/-- Writes bytes at `a`, `a + 1`, … in ascending order (20_memory.md R64), wrapping at 0xFFF (R51). -/
def State.memWriteList (s : State) (a : Addr) : List Byte → State
  | [] => s
  | v :: vs => (s.memWrite a v).memWriteList (a + 1) vs

/-- The instruction fetch (20_memory.md R52): the byte at pc is bits 15..8. -/
def State.fetch (s : State) : Word := s.memRead s.pc ++ s.memRead (s.pc + 1)

/-- `V[x]` (R16). -/
def State.v (s : State) (x : RegIdx) : Byte := s.regs[x]

/-- `V[x] <- b` (R16). -/
def State.setV (s : State) (x : RegIdx) (b : Byte) : State :=
  { s with regs := s.regs.set x.val b x.isLt }

/-- All sixteen registers at once. -/
def State.setRegs (s : State) (r : Vector Byte 16) : State := { s with regs := r }

/-- `I <- a` (R16). -/
def State.setI (s : State) (a : Addr) : State := { s with i := a }

/-- `pc <- a` (R16). -/
def State.setPc (s : State) (a : Addr) : State := { s with pc := a }

/-- The state with another call stack. -/
def State.setStack (s : State) (l : List Addr) : State := { s with stack := l }

/-- `push(a)` (R16, 10_state.md R25). -/
def State.push (s : State) (a : Addr) : State := s.setStack (a :: s.stack)

/-- `DT <- b` (R16). -/
def State.setDt (s : State) (b : Byte) : State := { s with dt := b }

/-- `ST <- b` (R16). -/
def State.setSt (s : State) (b : Byte) : State := { s with st := b }

/-- The state with another timer accumulator. -/
def State.setAcc (s : State) (n : Nat) : State := { s with acc := n }

/-- The state with another display buffer. -/
def State.setDisp (s : State) (d : Display) : State := { s with disp := d }

/-- The output `waiting_for_key` of this cycle. -/
def State.setWaiting (s : State) (b : Bool) : State := { s with waitingForKey := b }

/-- The state with another schedule of inputs. -/
def State.setInputs (s : State) (l : List CycleInput) : State := { s with inputs := l }

/-- The state with another fault record. -/
def State.setFault (s : State) (r : Option FaultRecord) : State := { s with fault := r }

/-- A skip: 2 more bytes when the condition holds (40_control_flow.md R100, R107). -/
def State.skipIf (s : State) (c : Bool) : State := if c then s.setPc (s.pc + 2) else s

/-- The address the word was fetched from, read back from the advanced pc: pc = (a + 2) & 0xFFF
(30_encoding.md R84, log 6). -/
def State.fetchAddr (s : State) : Addr := s.pc - 2

/-- TAKING THE FATAL FAULT, `raise E(a)` of 60_exceptions.md R223: the record is set and nothing else changes.
There is no way back (R225). -/
def State.raise (s : State) (k : FaultKind) : State := s.setFault (some ⟨k, s.fetchAddr⟩)

/-- The inputs of the coming or running cycle (10_state.md R40 to R44): the scheduled ones, or free values. -/
def State.input (s : State) : CycleInput :=
  match s.inputs with
  | inp :: _ => inp
  | [] => Config.freeInput s.cycle

/-- Is key `k` down (10_state.md R28)? -/
def State.keyDown (s : State) (k : KeyIdx) : Bool := s.keypad.getLsbD k.val

/-- Pixel `disp[c][r]`. -/
def Display.pixel (d : Display) (c : Fin 64) (r : Fin 32) : Bool := d[c][r]

/-- `disp[c][r] <- disp[c][r] ^ 1`. -/
def Display.flip (d : Display) (c : Fin 64) (r : Fin 32) : Display :=
  d.set c.val (d[c].set r.val (!d[c][r]) r.isLt) c.isLt

/-- Draws one set sprite bit: the pixel flips, and the collision flag is set if it was on (42_display.md R161). -/
def drawPixel (p : Display × Bool) (c : Fin 64) (r : Fin 32) : Display × Bool :=
  (p.1.flip c r, p.2 || p.1.pixel c r)

/-- The column of sprite column `col`: `(cx + col) mod 64` (R161). -/
def spriteCol (cx : Byte) (col : Nat) : Fin 64 := Fin.ofNat 64 (cx.toNat + col)

/-- The row of sprite row `row`: `(cy + row) mod 32` (R161). -/
def spriteRow (cy : Byte) (row : Nat) : Fin 32 := Fin.ofNat 32 (cy.toNat + row)

/-- Bit of sprite byte `b` at column offset `col`: bit 7 is the leftmost (R162). -/
def spriteBit (b : Byte) (col : Nat) : Bool := b.getLsbD (7 - col)

/-- Draws one sprite byte, columns 0 to 7, on the row `r` (the inner loop of R161). -/
def drawRow (cx : Byte) (r : Fin 32) (b : Byte) (p : Display × Bool) : Display × Bool :=
  (List.range 8).foldl
    (fun q col => if spriteBit b col then drawPixel q (spriteCol cx col) r else q) p

/-- Draws sprite rows, the first at sprite row `row` (the outer loop of R161). -/
def drawRows (cx cy : Byte) : Nat → List Byte → Display × Bool → Display × Bool
  | _, [], p => p
  | row, b :: bs, p => drawRows cx cy (row + 1) bs (drawRow cx (spriteRow cy row) b p)

/-- The `n` bytes at `base`, `base + 1`, …, wrapping at 0xFFF. -/
def State.memReadList (s : State) (base : Addr) (n : Nat) : List Byte :=
  (List.range n).map fun k => s.memRead (base + BitVec.ofNat 12 k)

/-- A timer that holds `t` after `ticks` ticks: one less per tick, stopping at 0 (60_exceptions.md R241). -/
def timerAfter (t : Byte) (ticks : Nat) : Byte := BitVec.ofNat 8 (t.toNat - ticks)

/-- `TimerTick(ms)` of 60_exceptions.md R240, in exact arithmetic: the accumulator counts 1/60 ms. -/
def State.timerTick (s : State) (ms : Nat) : State :=
  let total := s.acc + 60 * ms
  let ticks := total / 1000
  ((s.setAcc (total % 1000)).setDt (timerAfter s.dt ticks)).setSt (timerAfter s.st ticks)

end Machine
end Sys2Proof
end

