-- ==== Sys2Proof/Machine/Cycle.lean ====
section
/-! DEFINITION. The stages of one cycle around the handler (30_encoding.md R82 to R87), the outputs of the block
(10_state.md R45), its construction (70_reset_and_hazards.md R260), and placing a word under pc. -/

namespace Sys2Proof.Machine

/-- The start of a cycle and stage 1: the one-cycle outputs are 0, the key inputs are sampled (R82, R83). -/
def State.sampleInputs (s : State) : State :=
  { s with
    keypad := s.input.keys, lastKey := s.input.edge,
    displayChanged := false, warnUnhandled := false, waitingForKey := false }

/-- Stage 3: pc advances by 2 before the handler runs (R84). -/
def State.advance (s : State) : State := s.setPc (s.pc + 2)

/-- The state the handler of a cycle starts from: stages 1 to 3. The fetch between them reads memory only. -/
def State.beforeExec (s : State) : State := s.sampleInputs.advance

/-- Stage 5 for a word without a handler: counted and warned of (R85). -/
def State.noteUnhandled (s : State) : State :=
  { s with unhandledCount := s.unhandledCount + 1, warnUnhandled := true }

/-- Does stage 6 signal the display for this instruction (42_display.md R166)? -/
def signalsDisplay : Instr → Bool
  | .cls _ => true
  | .drw _ _ _ => true
  | .ret _ | .sys _ | .jp _ | .call _ | .seImm _ _ | .sneImm _ _ | .seReg _ _ | .ldImm _ _ => false
  | .addImm _ _ | .ldReg _ _ | .orReg _ _ | .andReg _ _ | .xorReg _ _ | .addReg _ _ => false
  | .sub _ _ | .shr _ _ | .subn _ _ | .shl _ _ | .sneReg _ _ | .ldI _ | .jpV0 _ | .rnd _ _ => false
  | .skp _ | .sknp _ | .ldFromDt _ | .ldK _ | .ldDt _ | .ldSt _ | .addI _ | .ldF _ | .ldB _ => false
  | .storeRegs _ | .loadRegs _ => false

/-- Stage 6: the output `display_changed` (R166). -/
def State.renderSignal (s : State) (i : Instr) : State :=
  if signalsDisplay i then { s with displayChanged := true } else s

/-- Stage 7 with this cycle's elapsed time (60_exceptions.md R240, R242). -/
def State.tick (s : State) : State := s.timerTick s.input.elapsedMs

/-- The end of a cycle: its inputs are used up. Only the model's own fields move (log 2, log 3). -/
def State.endCycle (s : State) : State :=
  { s with inputs := s.inputs.tail, cycle := s.cycle + 1 }

/-- Stages 6 and 7 and the end of the cycle after a handler. They do not run in a cycle that faulted (R86). -/
def State.afterExec (s : State) (i : Instr) : State :=
  match s.fault with
  | some _ => s.endCycle
  | none => (s.renderSignal i).tick.endCycle

/-- Stages 5 to 8 of a cycle whose word has no handler: no render signal, but the tick (R85, R226). -/
def State.unhandledCycle (s : State) : State := s.noteUnhandled.tick.endCycle

/-- The outputs of a step (10_state.md R45). -/
structure Outputs where
  display : Display
  displayChanged : Bool
  soundTimer : Byte
  warnUnhandled : Bool
  waitingForKey : Bool
  fault : Option FaultRecord
  unhandledCount : Nat
  deriving DecidableEq, Repr

/-- The outputs as the host reads them after a step (R45, 60_exceptions.md R244, R245). -/
def State.outputs (s : State) : Outputs where
  display := s.disp
  displayChanged := s.displayChanged
  soundTimer := s.st
  warnUnhandled := s.warnUnhandled
  waitingForKey := s.waitingForKey
  fault := s.fault
  unhandledCount := s.unhandledCount

/-- The code of a fault record (60_exceptions.md R221): 0 none, 1 StackUnderflow, 2 StackOverflow. -/
def faultCode : Option FaultRecord → Nat
  | none => 0
  | some ⟨.stackUnderflow, _⟩ => 1
  | some ⟨.stackOverflow, _⟩ => 2

/-- Why no machine is built (00_scope.md R9, R11, 70_reset_and_hazards.md R262). -/
inductive ConstructError where
  | fontOverlapsProgram
  | stackLimitNotPositive
  | romTooLong
  deriving DecidableEq, Repr

/-- `Reset(cfg, rom)` of R260: the machine built from a configuration and a ROM image. -/
def construct (cfg : Config) (rom : List Byte) : Except ConstructError State :=
  if ¬ cfg.fontBase.toNat + 80 ≤ 0x200 then .error .fontOverlapsProgram
  else if cfg.stackLimit = some 0 then .error .stackLimitNotPositive
  else if ¬ rom.length ≤ 0xE00 then .error .romTooLong
  else .ok (State.memWriteList { State.reset with cfg := cfg } 0x200 rom)

/-- The state with a word stored at pc and pc + 1, where the next fetch reads it. -/
def State.placeWord (s : State) (w : Word) : State := s.memWriteList s.pc (wordBytes w)

end Sys2Proof.Machine
end

