-- ==== Sys2Proof/Machine/Operands.lean ====
section
/-! DEFINITION. The operand forms of the instructions: register, key and address operands (30_encoding.md R73,
44_index_memory.md). -/

namespace Sys2Proof.Machine

/-- The low nibble of a register, as a key or glyph number (43_keys_timers.md R180, 44_index_memory.md R202). -/
def lowNibble (b : Byte) : Fin 16 := Fin.ofNat 16 b.toNat

/-- A register as an address, zero-extended (30_encoding.md R73). -/
def zextAddr (b : Byte) : Addr := b.setWidth 12

/-- The effective address `(I + offset) & 0xFFF`, the one addressing mode (44_index_memory.md). -/
def State.indexed (s : State) (offset : Nat) : Addr := s.i + BitVec.ofNat 12 offset

/-- The target of Bnnn: `(nnn + V[0]) & 0xFFF` (40_control_flow.md R104). -/
def State.jumpV0Target (s : State) (nnn : Addr) : Addr := nnn + zextAddr (s.v 0)

/-- The source register of 8xy6 and 8xyE (41_load_alu.md R140). -/
def State.shiftSource (s : State) (x y : RegIdx) : Byte :=
  if s.cfg.shiftUsesSecondaryRegister then s.v y else s.v x

/-- The address of glyph `V[x] & 0xF` (44_index_memory.md R202). -/
def State.glyphAddr (s : State) (x : RegIdx) : Addr :=
  s.cfg.fontBase + BitVec.ofNat 12 ((lowNibble (s.v x)).val * 5)

/-- The decimal digits of a byte: hundreds, tens, units (44_index_memory.md R203). -/
def bcdDigits (b : Byte) : List Byte :=
  [BitVec.ofNat 8 (b.toNat / 100), BitVec.ofNat 8 (b.toNat / 10 % 10), BitVec.ofNat 8 (b.toNat % 10)]

/-- `V[0]` to `V[x]`, in order (R204). -/
def State.regsUpTo (s : State) (x : RegIdx) : List Byte := s.regs.toList.take (x.val + 1)

/-- The registers after `V[0]` to `V[x]` are loaded from memory at I (R205). -/
def State.loadedRegs (s : State) (x : RegIdx) : Vector Byte 16 :=
  Vector.ofFn fun k => if k ≤ x then s.memRead (s.indexed k.val) else s.v k

/-- I after Fx55 or Fx65: `I + x + 1` under its quirk, else unchanged (R204, R205). -/
def State.indexAfterBulk (s : State) (x : RegIdx) : Addr :=
  if s.cfg.bulkRegisterOpsIncrementIndex then s.indexed (x.val + 1) else s.i

end Sys2Proof.Machine
end

