-- ==== Sys2Proof/Machine/Flags.lean ====
section
/-! DEFINITION. The flag VF: every value the spec computes for it, and the order in which it is written
(10_state.md R22, 41_load_alu.md R132, R133). -/

namespace Sys2Proof.Machine

/-- The carry of an 8-bit addition: 1 iff the unmasked sum exceeds 255 (41_load_alu.md R138). -/
def carryFlag (p q : Byte) : Byte := b2v (decide (255 < p.toNat + q.toNat))

/-- NOT borrow of `p - q`: 1 iff p ≥ q (R139, R141). -/
def notBorrowFlag (p q : Byte) : Byte := b2v (decide (q.toNat ≤ p.toNat))

/-- The bit a right shift shifts out: bit 0 (R140). -/
def shrFlag (src : Byte) : Byte := b2v (src.getLsbD 0)

/-- The bit a left shift shifts out: bit 7 (R142). -/
def shlFlag (src : Byte) : Byte := b2v (src.getLsbD 7)

/-- The 12-bit overflow of `I + V[x]`: 1 iff the unmasked sum exceeds 0xFFF (44_index_memory.md R201). -/
def indexOverflowFlag (i : Addr) (b : Byte) : Byte := b2v (decide (0xFFF < i.toNat + b.toNat))

/-- `V[15] <- flag`. -/
def State.setFlag (s : State) (b : Byte) : State := s.setV 15 b

/-- The result, then the flag, so that the flag stands when x = 15 (R133). -/
def State.setResultFlag (s : State) (x : RegIdx) (result flag : Byte) : State :=
  (s.setV x result).setFlag flag

/-- The VF write of 8xy0 (first column of R132's table). -/
def State.clearFlagMove (s : State) : State :=
  match s.cfg.vfNonarith with
  | .clearAll => s.setFlag 0
  | .clearLogic => s
  | .preserve => s

/-- The VF write of 8xy1, 8xy2 and 8xy3 (second column of R132's table). -/
def State.clearFlagLogic (s : State) : State :=
  match s.cfg.vfNonarith with
  | .clearAll => s.setFlag 0
  | .clearLogic => s.setFlag 0
  | .preserve => s

end Sys2Proof.Machine
end

