-- ==== Sys2Proof/Machine/Alu.lean ====
section
/-! DEFINITION. The meanings of the loads, arithmetic and logic (41_load_alu.md). -/

namespace Sys2Proof.Machine

/-- LD Vx, kk (R130). -/
def execLdImm (x : RegIdx) (kk : Byte) (s : State) : Host.Outcome State Fault Refusal :=
  .next (s.setV x kk)

/-- ADD Vx, kk: no flag (R131). -/
def execAddImm (x : RegIdx) (kk : Byte) (s : State) : Host.Outcome State Fault Refusal :=
  .next (s.setV x (s.v x + kk))

/-- LD Vx, Vy (R134). -/
def execLdReg (x y : RegIdx) (s : State) : Host.Outcome State Fault Refusal :=
  .next (s.setV x (s.v y)).clearFlagMove

/-- OR Vx, Vy (R135). -/
def execOrReg (x y : RegIdx) (s : State) : Host.Outcome State Fault Refusal :=
  .next (s.setV x (s.v x ||| s.v y)).clearFlagLogic

/-- AND Vx, Vy (R136). -/
def execAndReg (x y : RegIdx) (s : State) : Host.Outcome State Fault Refusal :=
  .next (s.setV x (s.v x &&& s.v y)).clearFlagLogic

/-- XOR Vx, Vy (R137). -/
def execXorReg (x y : RegIdx) (s : State) : Host.Outcome State Fault Refusal :=
  .next (s.setV x (s.v x ^^^ s.v y)).clearFlagLogic

/-- ADD Vx, Vy: VF is the carry (R138). -/
def execAddReg (x y : RegIdx) (s : State) : Host.Outcome State Fault Refusal :=
  .next (s.setResultFlag x (s.v x + s.v y) (carryFlag (s.v x) (s.v y)))

/-- SUB Vx, Vy: Vx minus Vy, VF is NOT borrow (R139). -/
def execSub (x y : RegIdx) (s : State) : Host.Outcome State Fault Refusal :=
  .next (s.setResultFlag x (s.v x - s.v y) (notBorrowFlag (s.v x) (s.v y)))

/-- SHR Vx, Vy: VF is the bit shifted out (R140). -/
def execShr (x y : RegIdx) (s : State) : Host.Outcome State Fault Refusal :=
  .next (s.setResultFlag x (s.shiftSource x y >>> 1) (shrFlag (s.shiftSource x y)))

/-- SUBN Vx, Vy: Vy minus Vx, VF is NOT borrow (R141). -/
def execSubn (x y : RegIdx) (s : State) : Host.Outcome State Fault Refusal :=
  .next (s.setResultFlag x (s.v y - s.v x) (notBorrowFlag (s.v y) (s.v x)))

/-- SHL Vx, Vy: VF is the bit shifted out (R142). -/
def execShl (x y : RegIdx) (s : State) : Host.Outcome State Fault Refusal :=
  .next (s.setResultFlag x (s.shiftSource x y <<< 1) (shlFlag (s.shiftSource x y)))

/-- RND Vx, kk: this cycle's random byte masked with kk (R143). -/
def execRnd (x : RegIdx) (kk : Byte) (s : State) : Host.Outcome State Fault Refusal :=
  .next (s.setV x (s.input.rnd &&& kk))

end Sys2Proof.Machine
end

