-- ==== Sys2Proof/Machine/Control.lean ====
section
/-! DEFINITION. The meanings of the control-flow family (40_control_flow.md). In each, `s.pc` is already the
fetch address plus 2 (30_encoding.md R84). -/

namespace Sys2Proof.Machine

/-- SYS nnn does nothing (R101). -/
def execSys (_nnn : Addr) (s : State) : Host.Outcome State Fault Refusal := .next s

/-- RET: pops into pc, or takes StackUnderflow (R102). -/
def execRet (_x : RegIdx) (s : State) : Host.Outcome State Fault Refusal :=
  .next (match s.stack with
    | [] => s.raise .stackUnderflow
    | a :: rest => (s.setStack rest).setPc a)

/-- JP nnn (R103). -/
def execJp (nnn : Addr) (s : State) : Host.Outcome State Fault Refusal := .next (s.setPc nnn)

/-- JP V0, nnn (R104). -/
def execJpV0 (nnn : Addr) (s : State) : Host.Outcome State Fault Refusal :=
  .next (s.setPc (s.jumpV0Target nnn))

/-- CALL nnn: pushes the return address, or takes StackOverflow at STACK_LIMIT (R105, R106). -/
def execCall (nnn : Addr) (s : State) : Host.Outcome State Fault Refusal :=
  .next (if s.cfg.stackLimit = some s.stack.length then s.raise .stackOverflow
    else (s.push s.pc).setPc nnn)

/-- SE Vx, kk (R107). -/
def execSeImm (x : RegIdx) (kk : Byte) (s : State) : Host.Outcome State Fault Refusal :=
  .next (s.skipIf (s.v x == kk))

/-- SNE Vx, kk (R108). -/
def execSneImm (x : RegIdx) (kk : Byte) (s : State) : Host.Outcome State Fault Refusal :=
  .next (s.skipIf (s.v x != kk))

/-- SE Vx, Vy (R109). -/
def execSeReg (x y : RegIdx) (s : State) : Host.Outcome State Fault Refusal :=
  .next (s.skipIf (s.v x == s.v y))

/-- SNE Vx, Vy (R110). -/
def execSneReg (x y : RegIdx) (s : State) : Host.Outcome State Fault Refusal :=
  .next (s.skipIf (s.v x != s.v y))

end Sys2Proof.Machine
end

