-- ==== Sys2Proof/Machine/Draw.lean ====
section
/-! DEFINITION. The meanings of the display family (42_display.md). The output `display_changed` is stage 6 of
the cycle, not theirs (R166, 30_encoding.md R82). -/

namespace Sys2Proof.Machine

/-- CLS (R160). -/
def execCls (_x : RegIdx) (s : State) : Host.Outcome State Fault Refusal :=
  .next (s.setDisp Display.clear)

/-- The buffer and the collision flag after drawing `n` sprite bytes from I at (V[x], V[y]) (R161). -/
def State.drawSprite (s : State) (x y : RegIdx) (n : Nat) : Display × Bool :=
  drawRows (s.v x) (s.v y) 0 (s.memReadList s.i n) (s.disp, false)

/-- DRW Vx, Vy, n (R161). -/
def execDrw (x y : RegIdx) (n : BitVec 4) (s : State) : Host.Outcome State Fault Refusal :=
  .next ((s.setDisp (s.drawSprite x y n.toNat).1).setFlag (b2v (s.drawSprite x y n.toNat).2))

end Sys2Proof.Machine
end

