-- ==== Sys2Proof/Machine/IndexMemory.lean ====
section
/-! DEFINITION. The meanings of the index register and memory transfers (44_index_memory.md). -/

namespace Sys2Proof.Machine

/-- LD I, nnn (R200). -/
def execLdI (nnn : Addr) (s : State) : Host.Outcome State Fault Refusal := .next (s.setI nnn)

/-- ADD I, Vx: VF is the 12-bit overflow under its quirk, else untouched (R201). -/
def execAddI (x : RegIdx) (s : State) : Host.Outcome State Fault Refusal :=
  .next (if s.cfg.addIndexSetsOverflowFlag then
      (s.setI (s.i + zextAddr (s.v x))).setFlag (indexOverflowFlag s.i (s.v x))
    else s.setI (s.i + zextAddr (s.v x)))

/-- LD F, Vx (R202). -/
def execLdF (x : RegIdx) (s : State) : Host.Outcome State Fault Refusal :=
  .next (s.setI (s.glyphAddr x))

/-- LD B, Vx: the decimal digits at I, I + 1, I + 2 (R203). -/
def execLdB (x : RegIdx) (s : State) : Host.Outcome State Fault Refusal :=
  .next (s.memWriteList s.i (bcdDigits (s.v x)))

/-- LD [I], Vx: V[0] to V[x] to memory at I (R204). -/
def execStoreRegs (x : RegIdx) (s : State) : Host.Outcome State Fault Refusal :=
  .next ((s.memWriteList s.i (s.regsUpTo x)).setI (s.indexAfterBulk x))

/-- LD Vx, [I]: V[0] to V[x] from memory at I (R205). -/
def execLoadRegs (x : RegIdx) (s : State) : Host.Outcome State Fault Refusal :=
  .next ((s.setRegs (s.loadedRegs x)).setI (s.indexAfterBulk x))

end Sys2Proof.Machine
end

