-- ==== Sys2Proof/Machine/KeysTimers.lean ====
section
/-! DEFINITION. The meanings of the keypad and timer family (43_keys_timers.md). -/

namespace Sys2Proof.Machine

/-- SKP Vx (R180). -/
def execSkp (x : RegIdx) (s : State) : Host.Outcome State Fault Refusal :=
  .next (s.skipIf (s.keyDown (lowNibble (s.v x))))

/-- SKNP Vx (R181). -/
def execSknp (x : RegIdx) (s : State) : Host.Outcome State Fault Refusal :=
  .next (s.skipIf (!s.keyDown (lowNibble (s.v x))))

/-- LD Vx, DT (R184). -/
def execLdFromDt (x : RegIdx) (s : State) : Host.Outcome State Fault Refusal :=
  .next (s.setV x s.dt)

/-- LD Vx, K: stores this cycle's key edge, or rewinds pc and waits (R182). -/
def execLdK (x : RegIdx) (s : State) : Host.Outcome State Fault Refusal :=
  .next (match s.lastKey with
    | some k => s.setV x (BitVec.ofNat 8 k.val)
    | none => (s.setPc (s.pc - 2)).setWaiting true)

/-- LD DT, Vx (R185). -/
def execLdDt (x : RegIdx) (s : State) : Host.Outcome State Fault Refusal :=
  .next (s.setDt (s.v x))

/-- LD ST, Vx (R186). -/
def execLdSt (x : RegIdx) (s : State) : Host.Outcome State Fault Refusal :=
  .next (s.setSt (s.v x))

end Sys2Proof.Machine
end

