-- ==== Sys2Proof/Machine/Step.lean ====
section
/-! DEFINITION. One step is one cycle (30_encoding.md R81, R82). -/

namespace Sys2Proof.Machine

/-- One cycle (R82). It needs `fault = none` (R87); a word without a handler is a no-op cycle (R85). -/
def step (s : State) : Host.Outcome State Fault Refusal :=
  match s.fault with
  | some r => .fault (.halted r)
  | none =>
    match decodeWord s.cfg.op0Decode s.fetch with
    | .error _ => .next s.beforeExec.unhandledCycle
    | .ok i =>
      match exec i s.beforeExec with
      | .next t => .next (t.afterExec i)
      | .fault f => .fault f
      | .refused r => .refused r

/-- The state with the table word `w` of `nbits` bits stored where `step` fetches (at pc, high byte first). -/
def State.withFetchWord (s : State) (nbits w : Nat) : State := s.placeWord (tableWord nbits w)

end Sys2Proof.Machine
end

