-- ==== Sys2Proof/Safety.lean ====
section
/-! DEFINITION. The terms claims are made in: what two states share (frames), what each instruction may write
(10_state.md R22, R37), the invariant of the machine, and which pixels a sprite covers. -/

namespace Sys2Proof.Machine

/-- The elements of State other than the data registers. -/
inductive Element where
  | index
  | pc
  | stack
  | dt
  | st
  | acc
  | disp
  | keypad
  | lastKey
  | mem
  | fault
  | unhandledCount
  | displayChanged
  | warnUnhandled
  | waitingForKey
  | cfg
  | inputs
  | cycle
  deriving DecidableEq, Repr

/-- The element is the same in both states; memory is compared byte by byte, as it reads. -/
def Element.Same (p : Element) (s t : State) : Prop :=
  match p with
  | .index => t.i = s.i
  | .pc => t.pc = s.pc
  | .stack => t.stack = s.stack
  | .dt => t.dt = s.dt
  | .st => t.st = s.st
  | .acc => t.acc = s.acc
  | .disp => t.disp = s.disp
  | .keypad => t.keypad = s.keypad
  | .lastKey => t.lastKey = s.lastKey
  | .mem => ∀ a, t.memRead a = s.memRead a
  | .fault => t.fault = s.fault
  | .unhandledCount => t.unhandledCount = s.unhandledCount
  | .displayChanged => t.displayChanged = s.displayChanged
  | .warnUnhandled => t.warnUnhandled = s.warnUnhandled
  | .waitingForKey => t.waitingForKey = s.waitingForKey
  | .cfg => t.cfg = s.cfg
  | .inputs => t.inputs = s.inputs
  | .cycle => t.cycle = s.cycle

/-- FRAME: from `s` to `t` every data register but the listed ones, and every other element but the listed
ones, is unchanged. -/
def Frame (regs : List RegIdx) (parts : List Element) (s t : State) : Prop :=
  (∀ r, r ∉ regs → t.v r = s.v r) ∧ ∀ p, p ∉ parts → p.Same s t

/-- The data registers an instruction may write: its destination and VF, by 10_state.md R22 and R37. -/
def writtenRegs (c : Config) : Instr → List RegIdx
  | .cls _ | .ret _ | .sys _ | .jp _ | .call _ | .jpV0 _ => []
  | .seImm _ _ | .sneImm _ _ | .seReg _ _ | .sneReg _ _ | .skp _ | .sknp _ => []
  | .ldImm x _ | .addImm x _ | .rnd x _ | .ldFromDt x | .ldK x => [x]
  | .ldReg x _ => if c.vfNonarith = .clearAll then [x, 15] else [x]
  | .orReg x _ | .andReg x _ | .xorReg x _ => if c.vfNonarith = .preserve then [x] else [x, 15]
  | .addReg x _ | .sub x _ | .shr x _ | .subn x _ | .shl x _ => [x, 15]
  | .drw _ _ _ => [15]
  | .addI _ => if c.addIndexSetsOverflowFlag then [15] else []
  | .ldI _ | .ldDt _ | .ldSt _ | .ldF _ | .ldB _ | .storeRegs _ => []
  | .loadRegs x => (List.finRange 16).filter (fun r => r ≤ x)

/-- The other elements an instruction may write (R37); RET and CALL may also set the fault record (R223). -/
def writtenParts (c : Config) : Instr → List Element
  | .cls _ | .drw _ _ _ => [.disp]
  | .ret _ | .call _ => [.pc, .stack, .fault]
  | .jp _ | .jpV0 _ => [.pc]
  | .seImm _ _ | .sneImm _ _ | .seReg _ _ | .sneReg _ _ | .skp _ | .sknp _ => [.pc]
  | .ldK _ => [.pc, .waitingForKey]
  | .ldDt _ => [.dt]
  | .ldSt _ => [.st]
  | .ldI _ | .addI _ | .ldF _ => [.index]
  | .ldB _ => [.mem]
  | .storeRegs _ => if c.bulkRegisterOpsIncrementIndex then [.mem, .index] else [.mem]
  | .loadRegs _ => if c.bulkRegisterOpsIncrementIndex then [.index] else []
  | .sys _ | .ldImm _ _ | .addImm _ _ | .ldReg _ _ | .orReg _ _ | .andReg _ _ | .xorReg _ _ => []
  | .addReg _ _ | .sub _ _ | .shr _ _ | .subn _ _ | .shl _ _ | .rnd _ _ | .ldFromDt _ => []

/-- A sprite of `n` rows at I, drawn at (V[x], V[y]), covers pixel (c, r) with a set bit (42_display.md R161). -/
def SpriteCovers (s : State) (x y : RegIdx) (n : Nat) (c : Fin 64) (r : Fin 32) : Prop :=
  ∃ row < n, ∃ col < 8, (s.memRead (s.i + BitVec.ofNat 12 row)).getLsbD (7 - col) = true
    ∧ c.val = ((s.v x).toNat + col) % 64 ∧ r.val = ((s.v y).toNat + row) % 32

/-- What the machine keeps true between cycles. -/
structure State.Inv (s : State) : Prop where
  /-- The configuration is one a machine is built with (00_scope.md R9, R11). -/
  cfgValid : s.cfg.valid = true
  /-- Memory is in its canonical form. -/
  memWf : s.mem.wf s.cfg.resetByte = true
  /-- The accumulator holds less than one tick (10_state.md R32, 60_exceptions.md R240). -/
  accBelow : s.acc < 1000
  /-- The call stack is not deeper than STACK_LIMIT (10_state.md R25). -/
  stackDepth : ∀ l, s.cfg.stackLimit = some l → s.stack.length ≤ l
  /-- A recorded fault names the word before pc and its cause still stands (60_exceptions.md R222 to R224). -/
  faultCause : ∀ r, s.fault = some r → s.pc = r.addr + 2 ∧
    match r.kind with
    | .stackUnderflow => s.stack = []
    | .stackOverflow => s.cfg.stackLimit = some s.stack.length
  /-- At most one event a cycle: a fault, a warning, a wait and a display change exclude each other (R228). -/
  oneEvent : (s.fault ≠ none → s.warnUnhandled = false ∧ s.waitingForKey = false ∧ s.displayChanged = false) ∧
    (s.warnUnhandled = true → s.waitingForKey = false ∧ s.displayChanged = false) ∧
    (s.waitingForKey = true → s.displayChanged = false ∧ s.lastKey = none)

/-- A state that can still run: the invariant holds and no fault is recorded. -/
def State.Safe (s : State) : Prop := s.Inv ∧ s.fault = none

end Sys2Proof.Machine
end

