-- ==== Sys2Proof/Certificates/Slice0/Obligations.lean ====
section
/-! DEFINITION. The statements about the model, for the provers. Each docstring names the rule or the section of
spec/ it formalises. A state's configuration `cfg` is arbitrary throughout, so a statement about every state is
one about every configuration, and the inputs of a cycle are those the state holds or free values, so it is one
about all inputs. -/

open Sys2Proof Sys2Proof.Machine

/-! ### Encoding and decoding -/

/-- Every well-formed instruction is decoded from its own word, under both readings of op 0
(30_encoding.md section 4; the op-0 parameter is the spec's decision D3). -/
def Obligations.DecodeOfEncodeIsTheInstruction : Prop :=
  ∀ (c : Op0Decode) (i : Instr), i.wellFormed c = true → decodeWord c (encode i) = .ok i

/-- A word that decodes is the encoding of what it decodes to, and that is well formed: no bit of a word is
dropped (30_encoding.md sections 3 and 4). For CLS and RET under `kk_only` this holds because the model keeps the
field x, which 30_encoding.md section 5 says is ignored: the model's choice, log 8. -/
def Obligations.EncodeOfDecodeIsTheWord : Prop :=
  ∀ (c : Op0Decode) (w : Word) (i : Instr), decodeWord c w = .ok i → encode i = w ∧ i.wellFormed c = true

/-- The two-level dispatch and the opcode map (mask, match, handler) say the same of every word, and a word
outside op 0 matches at most one row (30_encoding.md section 4, the table and the lines under it). -/
def Obligations.DispatchFollowsTheOpcodeMap : Prop :=
  ∀ (c : Op0Decode) (w : Word),
    (decodeWord c w).toOption = ((opcodeMap c).find? (·.selects w)).map (fun r => r.build (decodeFields w)) ∧
    (nibble w 12 ≠ 0 → ((opcodeMap c).filter (·.selects w)).length ≤ 1)

/-- The unhandled words are exactly those of the table of 30_encoding.md section 5 (its rule is marked derived). -/
def Obligations.UnhandledWordsAreExactlyTheTable : Prop :=
  ∀ (c : Op0Decode) (w : Word),
    (∃ e, decodeWord c w = .error e) ↔
      (w.toNat / 4096 = 0x5 ∧ w.toNat % 16 ≠ 0) ∨
      (w.toNat / 4096 = 0x8 ∧ w.toNat % 16 ∈ [0x8, 0x9, 0xA, 0xB, 0xC, 0xD, 0xF]) ∨
      (w.toNat / 4096 = 0x9 ∧ w.toNat % 16 ≠ 0) ∨
      (w.toNat / 4096 = 0xE ∧ w.toNat % 256 ∉ [0x9E, 0xA1]) ∨
      (w.toNat / 4096 = 0xF ∧
        w.toNat % 256 ∉ [0x07, 0x0A, 0x15, 0x18, 0x1E, 0x29, 0x33, 0x55, 0x65])

/-- R71: the six fields are the nibbles of the word, and kk = y ‖ n, nnn = x ‖ kk. -/
def Obligations.FieldsAreTheNibblesOfTheWord : Prop :=
  ∀ w : Word, let f := decodeFields w
    w.toNat = f.op.val * 4096 + f.x.val * 256 + f.y.val * 16 + f.n.toNat ∧
    f.kk.toNat = f.y.val * 16 + f.n.toNat ∧ f.nnn.toNat = f.x.val * 256 + f.kk.toNat

/-- Words written out from the patterns of R77 decode to the instructions they stand for, one or more a family. -/
def Obligations.SampleWordsDecode : Prop :=
  decodeTableWord 16 0x2ABC = some (.call 0xABC) ∧ decodeTableWord 16 0x3A42 = some (.seImm 0xA 0x42) ∧
  decodeTableWord 16 0x8127 = some (.subn 1 2) ∧ decodeTableWord 16 0xC30F = some (.rnd 3 0x0F) ∧
  decodeTableWord 16 0xD125 = some (.drw 1 2 5) ∧ decodeTableWord 16 0xE39E = some (.skp 3) ∧
  decodeTableWord 16 0xF50A = some (.ldK 5) ∧ decodeTableWord 16 0xF265 = some (.loadRegs 2) ∧
  decodeTableWord 16 0x5121 = none

/-! ### The cycle -/

/-- A step runs the decoded instruction: sampling and the advance of pc before it, the render signal, the tick and
the end of the cycle after it (30_encoding.md section 7; the order of stages is the spec's decision D15; `inputs`
and `cycle` are the model's own fields, log 2 and log 3). -/
def Obligations.StepRunsTheDecodedInstruction : Prop :=
  ∀ (s : State) (i : Instr), s.fault = none → decodeWord s.cfg.op0Decode s.fetch = .ok i →
    ∃ b t, exec i b = .next t ∧ step s = .next (t.afterExec i) ∧
      b.pc = s.pc + 2 ∧ b.keypad = s.input.keys ∧ b.lastKey = s.input.edge ∧
      b.displayChanged = false ∧ b.warnUnhandled = false ∧ b.waitingForKey = false ∧
      Frame [] [.pc, .keypad, .lastKey, .displayChanged, .warnUnhandled, .waitingForKey] s b ∧
      (t.fault ≠ none → t.afterExec i = { t with inputs := t.inputs.tail, cycle := t.cycle + 1 }) ∧
      (t.fault = none → ∃ d, d = (t.renderSignal i).timerTick t.input.elapsedMs ∧
        t.afterExec i = { d with inputs := t.inputs.tail, cycle := t.cycle + 1 })

/-- The word of any well-formed instruction, placed at pc, is the instruction the next step runs
(30_encoding.md sections 4 and 7, 20_memory.md section 2). -/
def Obligations.PlacedInstructionIsTheOneRun : Prop :=
  ∀ (s : State) (i : Instr), s.fault = none → i.wellFormed s.cfg.op0Decode = true →
    ∃ t, exec i (s.withFetchWord 16 (encode i).toNat).beforeExec = .next t ∧
      step (s.withFetchWord 16 (encode i).toNat) = .next (t.afterExec i)

/-- The fetch is big-endian and wraps at the top of memory (20_memory.md sections 1 to 3; the byte order is the
spec's decision D1). -/
def Obligations.FetchIsBigEndianAndWraps : Prop :=
  ∀ s : State,
    s.fetch.toNat = (s.memRead s.pc).toNat * 256 + (s.memRead (s.pc + 1)).toNat ∧
    (s.pc = 0xFFF → s.fetch.toNat = (s.memRead 0xFFF).toNat * 256 + (s.memRead 0x000).toNat)

/-- Every instruction executes in every state, and every cycle of a machine without a fault completes
(60_exceptions.md section 2: one mode, every instruction legal, the spec's decision D21). That RET on an empty
stack and CALL at the limit answer a next state, and that `exec` answers one with a fault recorded, is the model's
form of the fault entry of 60_exceptions.md section 1 (the spec's decision D12): the model's choice, log 5. -/
def Obligations.EveryCycleCompletes : Prop :=
  (∀ (i : Instr) (s : State), ∃ t, exec i s = .next t) ∧
  ∀ s : State, s.fault = none → ∃ t, step s = .next t

/-- With a fault recorded there is no step, and only then (30_encoding.md section 7 and 60_exceptions.md
section 1, the spec's decision D30; the outcome `halted` is the model's form of it, log 5). -/
def Obligations.HaltedExactlyWhenFaultRecorded : Prop :=
  ∀ (s : State) (r : FaultRecord), step s = .fault (.halted r) ↔ s.fault = some r

/-- A cycle whose word has no handler: pc + 2, the count goes up by one, the warning is given, the timers tick,
and nothing else changes but the sampled inputs (30_encoding.md section 7, 60_exceptions.md section 1). -/
def Obligations.UnhandledWordIsACountedNoOp : Prop :=
  ∀ s : State, s.fault = none → (∃ e, decodeWord s.cfg.op0Decode s.fetch = .error e) →
    ∃ t, step s = .next t ∧ t.pc = s.pc + 2 ∧ t.unhandledCount = s.unhandledCount + 1 ∧
      t.warnUnhandled = true ∧ t.displayChanged = false ∧ t.waitingForKey = false ∧
      t.dt = (s.timerTick s.input.elapsedMs).dt ∧ t.st = (s.timerTick s.input.elapsedMs).st ∧
      t.acc = (s.timerTick s.input.elapsedMs).acc ∧
      t.keypad = s.input.keys ∧ t.lastKey = s.input.edge ∧
      Frame [] [.pc, .unhandledCount, .warnUnhandled, .displayChanged, .waitingForKey, .dt, .st, .acc,
        .keypad, .lastKey, .inputs, .cycle] s t

/-- R269: the handlers never change `keypad` and `last_key`; after a cycle they are what stage 1 of that cycle
sampled, so an edge of an earlier cycle is gone. -/
def Obligations.KeyInputsChangeOnlyByStageOne : Prop :=
  (∀ (i : Instr) (s t : State), exec i s = .next t → t.keypad = s.keypad ∧ t.lastKey = s.lastKey) ∧
  ∀ s t : State, step s = .next t → t.keypad = s.input.keys ∧ t.lastKey = s.input.edge

/-- `display_changed` after a cycle says that the cycle executed CLS or DRW, whether or not a pixel changed
(42_display.md, the spec's decision D24). -/
def Obligations.DisplayChangedMarksDisplayInstructions : Prop :=
  ∀ s t : State, step s = .next t →
    (t.displayChanged = true ↔
      (∃ x, decodeWord s.cfg.op0Decode s.fetch = .ok (.cls x)) ∨
      ∃ x y n, decodeWord s.cfg.op0Decode s.fetch = .ok (.drw x y n))

/-- A self-jump is a fixed point of pc, the registers, I, the stack, the display and every memory byte
(60_exceptions.md section 5, the spec's decision D28). -/
def Obligations.SelfJumpIsAFixedPoint : Prop :=
  ∀ s : State, s.fault = none → s.fetch.toNat = 0x1000 + s.pc.toNat →
    ∃ t, step s = .next t ∧
      Frame [] [.keypad, .lastKey, .displayChanged, .warnUnhandled, .waitingForKey, .dt, .st, .acc,
        .inputs, .cycle] s t

/-- Only RND reads the random byte, and only stage 7 reads the elapsed time: every other handler gives the same
result, whatever the inputs of the cycle are (10_state.md section 6, the spec's decisions D16 and D20). -/
def Obligations.NoHandlerButRndReadsTheCycleInputs : Prop :=
  ∀ (i : Instr) (s t : State) (l : List CycleInput), (∀ x kk, i ≠ .rnd x kk) → exec i s = .next t →
    exec i (s.setInputs l) = .next (t.setInputs l)

/-! ### The timers -/

/-- A timer goes down by one a tick and stops at 0, both timers by the same ticks of one accumulator, and 1000 ms
is exactly 60 ticks (60_exceptions.md section 3). The count of ticks, (acc + 60 ms) div 1000, is the spec's decision
D16; the accumulator as a natural number is DEDUCED, log 19. -/
def Obligations.TimersCountDownAndStopAtZero : Prop :=
  ∀ (s : State) (ms : Nat), let t := s.timerTick ms
    (t.dt.toNat = s.dt.toNat - (s.acc + 60 * ms) / 1000 ∧ t.st.toNat = s.st.toNat - (s.acc + 60 * ms) / 1000) ∧
    (s.acc < 1000 → ms = 1000 → t.dt.toNat = s.dt.toNat - 60 ∧ t.st.toNat = s.st.toNat - 60 ∧ t.acc = s.acc)

/-- The timers do not depend on how elapsed time is split between ticks, and the accumulator stays below one tick
(60_exceptions.md section 3, the spec's decision D16). -/
def Obligations.TimerTickIsAdditiveInElapsedTime : Prop :=
  ∀ (s : State) (a b : Nat),
    (s.timerTick a).timerTick b = s.timerTick (a + b) ∧ (s.timerTick a).acc < 1000

/-- R242: the tick runs once a cycle, after the handler: it ticks the value that LD DT and LD ST wrote in the same
cycle, LD Vx, DT sees the value before it, and a cycle that faults has no tick. -/
def Obligations.TickRunsAfterTheHandler : Prop :=
  ∀ (s : State) (x : RegIdx), s.fault = none →
    (decodeWord s.cfg.op0Decode s.fetch = .ok (.ldDt x) → ∃ t, step s = .next t ∧
      t.dt = ((s.setDt (s.v x)).timerTick s.input.elapsedMs).dt ∧ t.st = (s.timerTick s.input.elapsedMs).st) ∧
    (decodeWord s.cfg.op0Decode s.fetch = .ok (.ldSt x) → ∃ t, step s = .next t ∧
      t.st = ((s.setSt (s.v x)).timerTick s.input.elapsedMs).st ∧ t.dt = (s.timerTick s.input.elapsedMs).dt) ∧
    (decodeWord s.cfg.op0Decode s.fetch = .ok (.ldFromDt x) → ∃ t, step s = .next t ∧
      t.v x = s.dt ∧ t.dt = (s.timerTick s.input.elapsedMs).dt) ∧
    ∀ t, step s = .next t →
      (t.fault = none → t.acc = (s.timerTick s.input.elapsedMs).acc) ∧
      (t.fault ≠ none → t.dt = s.dt ∧ t.st = s.st ∧ t.acc = s.acc)

/-- R243: no handler but LD DT writes DT, none but LD ST writes ST; both reset to 0. -/
def Obligations.OnlyTwoInstructionsWriteTheTimers : Prop :=
  (∀ (i : Instr) (s t : State), exec i s = .next t →
    (t.dt ≠ s.dt → ∃ x, i = .ldDt x) ∧ (t.st ≠ s.st → ∃ x, i = .ldSt x) ∧ t.acc = s.acc) ∧
  State.reset.dt = 0 ∧ State.reset.st = 0

/-! ### The whole machine -/

/-- Every instruction changes only the registers and elements that the access table gives it
(10_state.md section 3, marked derived, and the list of VF writers in 10_state.md section 1). -/
def Obligations.EveryInstructionKeepsItsFrame : Prop :=
  ∀ (i : Instr) (s t : State), exec i s = .next t →
    Frame (writtenRegs s.cfg i) (writtenParts s.cfg i) s t

/-- R222: StackUnderflow is raised by RET with an empty stack and by nothing else. -/
def Obligations.StackUnderflowOnlyByRetOnEmptyStack : Prop :=
  ∀ (i : Instr) (s t : State), s.fault = none → exec i s = .next t →
    ((∃ a, t.fault = some ⟨.stackUnderflow, a⟩) ↔ (∃ x, i = .ret x) ∧ s.stack = [])

/-- StackOverflow is raised by CALL with STACK_LIMIT entries on the stack and by nothing else; with no limit it is
never raised (60_exceptions.md section 1, the spec's decision D11). -/
def Obligations.StackOverflowOnlyByCallAtTheLimit : Prop :=
  ∀ (i : Instr) (s t : State), s.fault = none → exec i s = .next t →
    ((∃ a, t.fault = some ⟨.stackOverflow, a⟩) ↔
      (∃ nnn, i = .call nnn) ∧ s.cfg.stackLimit = some s.stack.length)

/-- A cycle that faults records the address of its word and changes nothing but pc, by stage 3, and the sampled
inputs and outputs of the cycle (60_exceptions.md section 1, the spec's decision D12). -/
def Obligations.FaultingCycleChangesNothingElse : Prop :=
  ∀ (s t : State) (r : FaultRecord), step s = .next t → t.fault = some r →
    r.addr = s.pc ∧ t.pc = s.pc + 2 ∧
    t.displayChanged = false ∧ t.warnUnhandled = false ∧ t.waitingForKey = false ∧
    Frame [] [.pc, .fault, .keypad, .lastKey, .displayChanged, .warnUnhandled, .waitingForKey, .inputs,
      .cycle] s t

/-- The configuration never changes (10_state.md section 2; that `cfg` stands in State is the model's, log 1). -/
def Obligations.NoCycleChangesTheConfiguration : Prop :=
  ∀ s t : State, step s = .next t → t.cfg = s.cfg

/-- Every step keeps the machine's invariant: valid configuration, canonical memory, accumulator below one tick,
stack within its limit, a recorded fault with its cause, and at most one event a cycle
(10_state.md section 1, 60_exceptions.md sections 1 to 3). -/
def Obligations.EveryStepKeepsTheMachineInvariant : Prop :=
  ∀ s t : State, s.Inv → step s = .next t → t.Inv

/-- The machine after reset, and every machine that is built, meets the invariant (70_reset_and_hazards.md
section 1). -/
def Obligations.ResetMeetsTheMachineInvariant : Prop :=
  State.reset.Inv ∧ ∀ (cfg : Config) (rom : List Byte) (s : State), construct cfg rom = .ok s → s.Inv

/-! ### Reset -/

/-- Execution starts at pc = 0x200, and the first fetch reads 0x200 and 0x201 (70_reset_and_hazards.md section 1).
That the byte at 0x200 is the high byte is 20_memory.md section 2, the spec's decision D1 (PRESUMED, log 13). -/
def Obligations.ResetEntryPointIs0x200 : Prop :=
  State.reset.pc = 0x200 ∧
  ∀ (cfg : Config) (rom : List Byte) (s : State), construct cfg rom = .ok s →
    s.pc = 0x200 ∧ s.fetch.toNat = (s.memRead 0x200).toNat * 256 + (s.memRead 0x201).toNat

/-- R56: the address map at reset: the font at FONT_BASE (default 0x050), the ROM image from 0x200, zeros elsewhere, entry 0x200. -/
def Obligations.ConstructionLaysOutTheAddressMap : Prop :=
  Config.default.fontBase = 0x050 ∧
  ∀ (cfg : Config) (rom : List Byte) (s : State), construct cfg rom = .ok s →
    s.pc = 0x200 ∧
    ∀ a : Addr,
      (∀ k (hk : k < 80), a.toNat = cfg.fontBase.toNat + k →
        s.memRead a = (cfg.fontGlyphs[k / 5]'(by omega))[k % 5]'(by omega)) ∧
      (∀ k b, rom[k]? = some b → a.toNat = 0x200 + k → s.memRead a = b) ∧
      (¬ (cfg.fontBase.toNat ≤ a.toNat ∧ a.toNat < cfg.fontBase.toNat + 80) →
        ¬ (0x200 ≤ a.toNat ∧ a.toNat < 0x200 + rom.length) → s.memRead a = 0x00)

/-- Every other element at reset, for every configuration (10_state.md section 4; the values of I, stack, display,
keypad, last_key, acc, fault and count are the spec's decision D17, those of the outputs the model's, log 4). -/
def Obligations.ConstructedMachineIsZeroed : Prop :=
  ∀ (cfg : Config) (rom : List Byte) (s : State), construct cfg rom = .ok s →
    (∀ r, s.v r = 0x00) ∧ s.i = 0x000 ∧ s.stack = [] ∧ s.dt = 0x00 ∧ s.st = 0x00 ∧
    (∀ c r, s.disp.pixel c r = false) ∧ (∀ k, s.keyDown k = false) ∧ s.lastKey = none ∧ s.acc = 0 ∧
    s.fault = none ∧ s.unhandledCount = 0 ∧ s.cfg = cfg ∧
    s.displayChanged = false ∧ s.warnUnhandled = false ∧ s.waitingForKey = false

/-- A machine is built exactly for a valid configuration and a ROM image of at most 0xE00 bytes
(00_scope.md section 4, 70_reset_and_hazards.md section 1, the spec's decisions D10 and D19; that a STACK_LIMIT
of 0 is turned away is read from 'a positive count', log 11). -/
def Obligations.ConstructionRefusesExactlyBadInputs : Prop :=
  ∀ (cfg : Config) (rom : List Byte),
    (∃ s, construct cfg rom = .ok s) ↔
      cfg.fontBase.toNat + 80 ≤ 0x200 ∧ cfg.stackLimit ≠ some 0 ∧ rom.length ≤ 0xE00

/-! ### Control flow -/

/-- SYS changes nothing: pc keeps its advance and no warning is given (40_control_flow.md, the spec's
decision D4). -/
def Obligations.SysDoesNothing : Prop :=
  ∀ (nnn : Addr) (s : State), ∃ t, exec (.sys nnn) s = .next t ∧ Frame [] [] s t

/-- RET pops the top of the stack into pc; with an empty stack it records StackUnderflow and changes nothing else
(40_control_flow.md section 2, 60_exceptions.md section 1, the spec's decision D12). That the fault is a next state
is the model's choice, log 5; its address, the fetch address recomputed as pc - 2, is DEDUCED, log 6. -/
def Obligations.RetPopsOrUnderflows : Prop :=
  ∀ (x : RegIdx) (s : State),
    (∀ a rest, s.stack = a :: rest → ∃ t, exec (.ret x) s = .next t ∧
      t.pc = a ∧ t.stack = rest ∧ Frame [] [.pc, .stack] s t) ∧
    (s.stack = [] → ∃ t, exec (.ret x) s = .next t ∧
      t.fault = some ⟨.stackUnderflow, s.pc - 2⟩ ∧ Frame [] [.fault] s t)

/-- R103, R104: the jumps; Bnnn adds V0 and wraps at 12 bits. -/
def Obligations.JumpsSetThePc : Prop :=
  ∀ (nnn : Addr) (s : State),
    (∃ t, exec (.jp nnn) s = .next t ∧ t.pc = nnn ∧ Frame [] [.pc] s t) ∧
    (∃ t, exec (.jpV0 nnn) s = .next t ∧ t.pc.toNat = (nnn.toNat + (s.v 0).toNat) % 4096 ∧ Frame [] [.pc] s t)

/-- CALL pushes the advanced pc and jumps; at STACK_LIMIT it records StackOverflow and changes nothing else
(40_control_flow.md section 2). The behaviour at the limit is the spec's decision D11, its test by equality of depth
and limit DEDUCED, log 18. That the fault is a next state is the model's choice, log 5; its address, the fetch address
recomputed as pc - 2, is DEDUCED, log 6. -/
def Obligations.CallPushesTheReturnAddress : Prop :=
  ∀ (nnn : Addr) (s : State),
    (s.cfg.stackLimit ≠ some s.stack.length → ∃ t, exec (.call nnn) s = .next t ∧
      t.stack = s.pc :: s.stack ∧ t.pc = nnn ∧ Frame [] [.pc, .stack] s t) ∧
    (s.cfg.stackLimit = some s.stack.length → ∃ t, exec (.call nnn) s = .next t ∧
      t.fault = some ⟨.stackOverflow, s.pc - 2⟩ ∧ Frame [] [.fault] s t)

/-- A RET undoes a CALL that did not overflow: pc is back at the word after the CALL and the stack is as before
(40_control_flow.md, RET's corner cases). -/
def Obligations.RetReturnsToTheWordAfterCall : Prop :=
  ∀ (nnn : Addr) (x : RegIdx) (s t b : State), s.fault = none → exec (.call nnn) s = .next t →
    t.fault = none → b.stack = t.stack →
    ∃ u, exec (.ret x) b = .next u ∧ u.pc = s.pc ∧ u.stack = s.stack

/-- R107, R108, R109, R110: the compare-and-skip instructions add 2 to pc when their condition holds. -/
def Obligations.CompareAndSkip : Prop :=
  ∀ (x y : RegIdx) (kk : Byte) (s : State),
    (∃ t, exec (.seImm x kk) s = .next t ∧
      t.pc = (if s.v x = kk then s.pc + 2 else s.pc) ∧ Frame [] [.pc] s t) ∧
    (∃ t, exec (.sneImm x kk) s = .next t ∧
      t.pc = (if s.v x ≠ kk then s.pc + 2 else s.pc) ∧ Frame [] [.pc] s t) ∧
    (∃ t, exec (.seReg x y) s = .next t ∧
      t.pc = (if s.v x = s.v y then s.pc + 2 else s.pc) ∧ Frame [] [.pc] s t) ∧
    (∃ t, exec (.sneReg x y) s = .next t ∧
      t.pc = (if s.v x ≠ s.v y then s.pc + 2 else s.pc) ∧ Frame [] [.pc] s t)

/-! ### Loads, arithmetic and logic -/

/-- R130, R131: LD Vx, kk and ADD Vx, kk; the sum wraps and no flag changes, unless x = 15 is the destination. -/
def Obligations.ImmediateLoadAndAdd : Prop :=
  ∀ (x : RegIdx) (kk : Byte) (s : State),
    (∃ t, exec (.ldImm x kk) s = .next t ∧ t.v x = kk ∧ Frame [x] [] s t) ∧
    (∃ t, exec (.addImm x kk) s = .next t ∧
      (t.v x).toNat = ((s.v x).toNat + kk.toNat) % 256 ∧ Frame [x] [] s t)

/-- R134: LD Vx, Vy; VF becomes 0 under `clear_all` and only then. -/
def Obligations.RegisterMove : Prop :=
  ∀ (x y : RegIdx) (s : State), ∃ t, exec (.ldReg x y) s = .next t ∧
    (s.cfg.vfNonarith = .clearAll → t.v 15 = 0 ∧ (x ≠ 15 → t.v x = s.v y) ∧ Frame [x, 15] [] s t) ∧
    (s.cfg.vfNonarith ≠ .clearAll → t.v x = s.v y ∧ Frame [x] [] s t)

/-- R135, R136, R137: OR, AND and XOR, bit by bit; VF becomes 0 unless the parameter is `preserve`. -/
def Obligations.BitwiseLogic : Prop :=
  ∀ (x y : RegIdx) (s : State) (i : Instr) (f : Bool → Bool → Bool),
    (i = .orReg x y ∧ f = or) ∨ (i = .andReg x y ∧ f = and) ∨ (i = .xorReg x y ∧ f = xor) →
    ∃ t, exec i s = .next t ∧
      (s.cfg.vfNonarith ≠ .preserve → t.v 15 = 0 ∧ Frame [x, 15] [] s t ∧
        (x ≠ 15 → ∀ k < 8, (t.v x).getLsbD k = f ((s.v x).getLsbD k) ((s.v y).getLsbD k))) ∧
      (s.cfg.vfNonarith = .preserve → Frame [x] [] s t ∧
        ∀ k < 8, (t.v x).getLsbD k = f ((s.v x).getLsbD k) ((s.v y).getLsbD k))

/-- R138, R139: ADD Vx, Vy with carry and SUB Vx, Vy with NOT borrow; for x = 15 the flag stands. -/
def Obligations.AddAndSubtractWithFlag : Prop :=
  ∀ (x y : RegIdx) (s : State),
    (∃ t, exec (.addReg x y) s = .next t ∧
      (x ≠ 15 → (t.v x).toNat = ((s.v x).toNat + (s.v y).toNat) % 256) ∧
      t.v 15 = (if (s.v x).toNat + (s.v y).toNat > 255 then 1 else 0) ∧ Frame [x, 15] [] s t) ∧
    (∃ t, exec (.sub x y) s = .next t ∧
      (x ≠ 15 → ((t.v x).toNat : Int) = ((s.v x).toNat - (s.v y).toNat : Int) % 256) ∧
      t.v 15 = (if (s.v x).toNat ≥ (s.v y).toNat then 1 else 0) ∧ Frame [x, 15] [] s t)

/-- SUBN Vx, Vy is Vy minus Vx, with NOT borrow (41_load_alu.md section 2; the direction is the spec's
decision D2). -/
def Obligations.SubtractReversedWithFlag : Prop :=
  ∀ (x y : RegIdx) (s : State), ∃ t, exec (.subn x y) s = .next t ∧
    (x ≠ 15 → ((t.v x).toNat : Int) = ((s.v y).toNat - (s.v x).toNat : Int) % 256) ∧
    t.v 15 = (if (s.v y).toNat ≥ (s.v x).toNat then 1 else 0) ∧ Frame [x, 15] [] s t

/-- R140, R142: the shifts read Vy under the quirk and Vx without it, write Vx, and VF is the bit shifted out. -/
def Obligations.ShiftsAndTheirSource : Prop :=
  ∀ (x y : RegIdx) (s : State) (src : Byte),
    src = (if s.cfg.shiftUsesSecondaryRegister = true then s.v y else s.v x) →
    (∃ t, exec (.shr x y) s = .next t ∧ (x ≠ 15 → (t.v x).toNat = src.toNat / 2) ∧
      (t.v 15).toNat = src.toNat % 2 ∧ Frame [x, 15] [] s t) ∧
    (∃ t, exec (.shl x y) s = .next t ∧ (x ≠ 15 → (t.v x).toNat = src.toNat * 2 % 256) ∧
      (t.v 15).toNat = src.toNat / 128 ∧ Frame [x, 15] [] s t)

/-- RND Vx, kk is the cycle's random byte masked with kk, for every random byte (41_load_alu.md section 3, the
spec's decision D20). -/
def Obligations.RandomByteIsMasked : Prop :=
  ∀ (x : RegIdx) (kk : Byte) (s : State), ∃ t, exec (.rnd x kk) s = .next t ∧
    (∀ k < 8, (t.v x).getLsbD k = (s.input.rnd.getLsbD k && kk.getLsbD k)) ∧ Frame [x] [] s t

/-! ### Display -/

/-- R160: CLS turns every pixel off and changes nothing else, VF included; the cycle signals the display, on a clear
buffer too. -/
def Obligations.ClsTurnsEveryPixelOff : Prop :=
  ∀ (x : RegIdx) (s : State), ∃ t, exec (.cls x) s = .next t ∧
    (∀ c r, t.disp.pixel c r = false) ∧ Frame [] [.disp] s t ∧ (t.renderSignal (.cls x)).displayChanged = true

/-- DRW flips exactly the pixels that a set sprite bit covers, at columns mod 64 and rows mod 32, and VF is 1
exactly when one of them was on (42_display.md). That bit 7 of a sprite byte is its leftmost column is general
knowledge and the spec's decision D9 (PRESUMED, log 13). -/
def Obligations.DrawFlipsExactlyTheCoveredPixels : Prop :=
  ∀ (x y : RegIdx) (n : BitVec 4) (s : State), ∃ t, exec (.drw x y n) s = .next t ∧
    (∀ c r, t.disp.pixel c r ≠ s.disp.pixel c r ↔ SpriteCovers s x y n.toNat c r) ∧
    ((∃ c r, SpriteCovers s x y n.toNat c r ∧ s.disp.pixel c r = true) → t.v 15 = 1) ∧
    ((¬ ∃ c r, SpriteCovers s x y n.toNat c r ∧ s.disp.pixel c r = true) → t.v 15 = 0) ∧
    Frame [15] [.disp] s t

/-- Drawing the same sprite twice at the same place restores any buffer; on a clear buffer the second VF is 1
exactly when the sprite has a set bit (42_display.md, its last rule, marked derived). -/
def Obligations.DrawingTwiceRestoresTheBuffer : Prop :=
  ∀ (x y : RegIdx) (n : BitVec 4) (s t b : State), exec (.drw x y n) s = .next t →
    b.disp = t.disp → b.v x = s.v x → b.v y = s.v y → b.i = s.i → (∀ a, b.memRead a = s.memRead a) →
    ∃ u, exec (.drw x y n) b = .next u ∧ u.disp = s.disp ∧
      (s.disp = Display.clear →
        (u.v 15 = 1 ↔ ∃ row < n.toNat, s.memRead (s.i + BitVec.ofNat 12 row) ≠ 0))

/-- Dxy0 draws nothing and sets VF to 0 (42_display.md, marked derived). -/
def Obligations.DrawOfZeroRows : Prop :=
  ∀ (x y : RegIdx) (s : State), ∃ t, exec (.drw x y 0) s = .next t ∧ t.v 15 = 0 ∧ Frame [15] [] s t

/-! ### Keys and timers -/

/-- R180, R181: the key skips test the key numbered by the low nibble of Vx. -/
def Obligations.KeySkips : Prop :=
  ∀ (x : RegIdx) (s : State) (down : Bool), down = s.keypad.getLsbD ((s.v x).toNat % 16) →
    (∃ t, exec (.skp x) s = .next t ∧ t.pc = (if down = true then s.pc + 2 else s.pc) ∧ Frame [] [.pc] s t) ∧
    (∃ t, exec (.sknp x) s = .next t ∧ t.pc = (if down = true then s.pc else s.pc + 2) ∧ Frame [] [.pc] s t)

/-- R182: LD Vx, K stores the key-down edge of this cycle, or rewinds pc by 2 and reports that it waits. -/
def Obligations.WaitForKeyStoresOrRewinds : Prop :=
  ∀ (x : RegIdx) (s : State),
    (∀ k, s.lastKey = some k → ∃ t, exec (.ldK x) s = .next t ∧ (t.v x).toNat = k.val ∧ Frame [x] [] s t) ∧
    (s.lastKey = none → ∃ t, exec (.ldK x) s = .next t ∧ t.pc = s.pc - 2 ∧ t.waitingForKey = true ∧
      Frame [] [.pc, .waitingForKey] s t)

/-- While LD Vx, K waits, a cycle leaves pc at the instruction and changes no register, memory byte, pixel or
stack entry, while the timers tick (43_keys_timers.md section 2, the spec's decision D22). -/
def Obligations.WaitingCycleOnlyTicks : Prop :=
  ∀ (x : RegIdx) (s : State), s.fault = none → decodeWord s.cfg.op0Decode s.fetch = .ok (.ldK x) →
    s.input.edge = none →
    ∃ t, step s = .next t ∧ t.waitingForKey = true ∧ t.dt = (s.timerTick s.input.elapsedMs).dt ∧
      t.st = (s.timerTick s.input.elapsedMs).st ∧ t.acc = (s.timerTick s.input.elapsedMs).acc ∧
      Frame [] [.keypad, .lastKey, .displayChanged, .warnUnhandled, .waitingForKey, .dt, .st, .acc,
        .inputs, .cycle] s t

/-- R184, R185, R186: the timer moves are 8-bit copies. -/
def Obligations.TimerMovesCopyTheByte : Prop :=
  ∀ (x : RegIdx) (s : State),
    (∃ t, exec (.ldFromDt x) s = .next t ∧ t.v x = s.dt ∧ Frame [x] [] s t) ∧
    (∃ t, exec (.ldDt x) s = .next t ∧ t.dt = s.v x ∧ Frame [] [.dt] s t) ∧
    (∃ t, exec (.ldSt x) s = .next t ∧ t.st = s.v x ∧ Frame [] [.st] s t)

/-! ### Index register and memory -/

/-- LD I, nnn sets I; ADD I, Vx wraps at 12 bits and writes VF only under its quirk, 0 without overflow
(44_index_memory.md; the spec's decisions D2 and D8). -/
def Obligations.IndexLoadAndAdd : Prop :=
  ∀ (nnn : Addr) (x : RegIdx) (s : State),
    (∃ t, exec (.ldI nnn) s = .next t ∧ t.i = nnn ∧ Frame [] [.index] s t) ∧
    (∃ t, exec (.addI x) s = .next t ∧ t.i.toNat = (s.i.toNat + (s.v x).toNat) % 4096 ∧
      (s.cfg.addIndexSetsOverflowFlag = true →
        t.v 15 = (if s.i.toNat + (s.v x).toNat > 0xFFF then 1 else 0) ∧ Frame [15] [.index] s t) ∧
      (s.cfg.addIndexSetsOverflowFlag = false → Frame [] [.index] s t))

/-- R202: LD F, Vx points I at the glyph numbered by the low nibble of Vx. -/
def Obligations.FontCharacterAddress : Prop :=
  ∀ (x : RegIdx) (s : State), ∃ t, exec (.ldF x) s = .next t ∧
    t.i.toNat = (s.cfg.fontBase.toNat + (s.v x).toNat % 16 * 5) % 4096 ∧ Frame [] [.index] s t

/-- R203: LD B, Vx writes the hundreds, tens and units of Vx at I, I + 1, I + 2, and no other byte. -/
def Obligations.BcdStoresThreeDigits : Prop :=
  ∀ (x : RegIdx) (s : State), ∃ t, exec (.ldB x) s = .next t ∧
    (t.memRead s.i).toNat = (s.v x).toNat / 100 ∧
    (t.memRead (s.i + 1)).toNat = (s.v x).toNat / 10 % 10 ∧
    (t.memRead (s.i + 2)).toNat = (s.v x).toNat % 10 ∧
    (∀ a, a ≠ s.i → a ≠ s.i + 1 → a ≠ s.i + 2 → t.memRead a = s.memRead a) ∧
    Frame [] [.mem] s t

/-- R204: LD [I], Vx stores V0 to Vx from I on and no other byte, and adds x + 1 to I under its quirk. -/
def Obligations.BulkStoreWritesTheRegisters : Prop :=
  ∀ (x : RegIdx) (s : State), ∃ t, exec (.storeRegs x) s = .next t ∧
    (∀ r : RegIdx, r ≤ x → t.memRead (s.i + BitVec.ofNat 12 r.val) = s.v r) ∧
    (∀ a, (∀ r : RegIdx, r ≤ x → a ≠ s.i + BitVec.ofNat 12 r.val) → t.memRead a = s.memRead a) ∧
    t.i.toNat = (if s.cfg.bulkRegisterOpsIncrementIndex = true then (s.i.toNat + x.val + 1) % 4096
      else s.i.toNat) ∧
    Frame [] [.mem, .index] s t

/-- R205: LD Vx, [I] loads V0 to Vx from I on and no other register, and adds x + 1 to I under its quirk. -/
def Obligations.BulkLoadReadsTheRegisters : Prop :=
  ∀ (x : RegIdx) (s : State), ∃ t, exec (.loadRegs x) s = .next t ∧
    (∀ r : RegIdx, r ≤ x → t.v r = s.memRead (s.i + BitVec.ofNat 12 r.val)) ∧
    (∀ r : RegIdx, x < r → t.v r = s.v r) ∧
    t.i.toNat = (if s.cfg.bulkRegisterOpsIncrementIndex = true then (s.i.toNat + x.val + 1) % 4096
      else s.i.toNat) ∧
    ∀ p : Element, p ≠ .index → p.Same s t

/-- A store is seen by the next fetch of its bytes: two registers stored where pc points are the next word
(20_memory.md section 6, 70_reset_and_hazards.md section 3, marked derived). That the first stored register is the
high byte is 20_memory.md section 2, the spec's decision D1 (PRESUMED, log 13). -/
def Obligations.StoreIsSeenByTheNextFetch : Prop :=
  ∀ (x k l : RegIdx) (s t : State), exec (.storeRegs x) s = .next t → l.val = k.val + 1 → l ≤ x →
    s.pc = s.i + BitVec.ofNat 12 k.val →
    t.fetch.toNat = (s.v k).toNat * 256 + (s.v l).toNat
end

