-- ==== Sys2Proof/Laws/Decode.lean ====
section
/-! SUPPORT. The fields of the three word layouts (30_encoding.md R71), which proofs about encoding cite instead
of bits. -/

namespace Sys2Proof

theorem toNat_wordNnn (op : BitVec 4) (nnn : Addr) :
    (wordNnn op nnn).toNat = op.toNat * 4096 + nnn.toNat := by
  simp only [wordNnn, BitVec.toNat_append]
  rw [← Nat.shiftLeft_add_eq_or_of_lt nnn.isLt, Nat.shiftLeft_eq]

theorem toNat_wordXkk (op : BitVec 4) (x : RegIdx) (kk : Byte) :
    (wordXkk op x kk).toNat = op.toNat * 4096 + x.val * 256 + kk.toNat := by
  have hx : (BitVec.ofFin x : BitVec 4).toNat = x.val := rfl
  simp only [wordXkk, BitVec.toNat_append]
  rw [← Nat.shiftLeft_add_eq_or_of_lt kk.isLt, ← Nat.shiftLeft_add_eq_or_of_lt (BitVec.isLt _), hx,
    Nat.shiftLeft_eq, Nat.shiftLeft_eq]
  omega

theorem toNat_wordXyn (op : BitVec 4) (x y : RegIdx) (n : BitVec 4) :
    (wordXyn op x y n).toNat = op.toNat * 4096 + x.val * 256 + y.val * 16 + n.toNat := by
  have hx : (BitVec.ofFin x : BitVec 4).toNat = x.val := rfl
  have hy : (BitVec.ofFin y : BitVec 4).toNat = y.val := rfl
  simp only [wordXyn, BitVec.toNat_append]
  rw [← Nat.shiftLeft_add_eq_or_of_lt n.isLt, ← Nat.shiftLeft_add_eq_or_of_lt (BitVec.isLt _),
    ← Nat.shiftLeft_add_eq_or_of_lt (BitVec.isLt _), hx, hy,
    Nat.shiftLeft_eq, Nat.shiftLeft_eq, Nat.shiftLeft_eq]
  omega

/-- A field of a word as arithmetic. -/
theorem toNat_field (w : Word) (lo len : Nat) :
    (w.extractLsb' lo len).toNat = w.toNat / 2 ^ lo % 2 ^ len := by
  simp [BitVec.extractLsb'_toNat, Nat.shiftRight_eq_div_pow]

theorem val_nibble (w : Word) (lo : Nat) : (nibble w lo).val = w.toNat / 2 ^ lo % 16 := by
  simp only [nibble]
  exact toNat_field w lo 4

theorem decodeFields_op (w : Word) : (decodeFields w).op.val = w.toNat / 4096 := by
  have := w.isLt
  simp only [decodeFields, val_nibble]
  omega

@[simp] theorem fields_wordNnn_op (op : BitVec 4) (nnn : Addr) :
    (decodeFields (wordNnn op nnn)).op.val = op.toNat := by
  have := nnn.isLt
  rw [decodeFields_op, toNat_wordNnn]; omega

@[simp] theorem fields_wordNnn_nnn (op : BitVec 4) (nnn : Addr) :
    (decodeFields (wordNnn op nnn)).nnn = nnn := by
  have := nnn.isLt
  apply BitVec.eq_of_toNat_eq
  simp only [decodeFields, toNat_field, toNat_wordNnn]; omega

@[simp] theorem fields_wordNnn_kk (op : BitVec 4) (nnn : Addr) :
    (decodeFields (wordNnn op nnn)).kk = nnn.extractLsb' 0 8 := by
  have := nnn.isLt
  apply BitVec.eq_of_toNat_eq
  simp only [decodeFields, toNat_field, toNat_wordNnn, BitVec.extractLsb'_toNat]
  simp only [Nat.shiftRight_zero]
  omega

@[simp] theorem fields_wordXkk_op (op : BitVec 4) (x : RegIdx) (kk : Byte) :
    (decodeFields (wordXkk op x kk)).op.val = op.toNat := by
  have := kk.isLt
  rw [decodeFields_op, toNat_wordXkk]; omega

@[simp] theorem fields_wordXkk_x (op : BitVec 4) (x : RegIdx) (kk : Byte) :
    (decodeFields (wordXkk op x kk)).x = x := by
  have := kk.isLt
  apply Fin.ext
  simp only [decodeFields, val_nibble, toNat_wordXkk]; omega

@[simp] theorem fields_wordXkk_kk (op : BitVec 4) (x : RegIdx) (kk : Byte) :
    (decodeFields (wordXkk op x kk)).kk = kk := by
  have := kk.isLt
  apply BitVec.eq_of_toNat_eq
  simp only [decodeFields, toNat_field, toNat_wordXkk]; omega

theorem fields_wordXkk_nnn (op : BitVec 4) (x : RegIdx) (kk : Byte) :
    (decodeFields (wordXkk op x kk)).nnn = (BitVec.ofFin x : BitVec 4) ++ kk := by
  have := kk.isLt
  have hx : (BitVec.ofFin x : BitVec 4).toNat = x.val := rfl
  apply BitVec.eq_of_toNat_eq
  simp only [decodeFields, toNat_field, toNat_wordXkk, BitVec.toNat_append]
  rw [← Nat.shiftLeft_add_eq_or_of_lt kk.isLt, hx, Nat.shiftLeft_eq]; omega

@[simp] theorem fields_wordXyn_op (op : BitVec 4) (x y : RegIdx) (n : BitVec 4) :
    (decodeFields (wordXyn op x y n)).op.val = op.toNat := by
  have := n.isLt
  rw [decodeFields_op, toNat_wordXyn]; omega

@[simp] theorem fields_wordXyn_x (op : BitVec 4) (x y : RegIdx) (n : BitVec 4) :
    (decodeFields (wordXyn op x y n)).x = x := by
  have := n.isLt
  apply Fin.ext
  simp only [decodeFields, val_nibble, toNat_wordXyn]; omega

@[simp] theorem fields_wordXyn_y (op : BitVec 4) (x y : RegIdx) (n : BitVec 4) :
    (decodeFields (wordXyn op x y n)).y = y := by
  have := n.isLt
  apply Fin.ext
  simp only [decodeFields, val_nibble, toNat_wordXyn]; omega

@[simp] theorem fields_wordXyn_n (op : BitVec 4) (x y : RegIdx) (n : BitVec 4) :
    (decodeFields (wordXyn op x y n)).n = n := by
  have := n.isLt
  apply BitVec.eq_of_toNat_eq
  simp only [decodeFields, toNat_field, toNat_wordXyn]; omega

/-- A word is its op, x and kk fields (R71). -/
theorem wordXkk_fields (w : Word) :
    wordXkk (w.extractLsb' 12 4) (decodeFields w).x (decodeFields w).kk = w := by
  have := w.isLt
  apply BitVec.eq_of_toNat_eq
  simp only [toNat_wordXkk, decodeFields, val_nibble, toNat_field]; omega

/-- A word is its op, x, y and n fields (R71). -/
theorem wordXyn_fields (w : Word) :
    wordXyn (w.extractLsb' 12 4) (decodeFields w).x (decodeFields w).y (decodeFields w).n = w := by
  have := w.isLt
  apply BitVec.eq_of_toNat_eq
  simp only [toNat_wordXyn, decodeFields, val_nibble, toNat_field]; omega

/-- A word is its op and nnn fields (R71). -/
theorem wordNnn_fields (w : Word) : wordNnn (w.extractLsb' 12 4) (decodeFields w).nnn = w := by
  have := w.isLt
  apply BitVec.eq_of_toNat_eq
  simp only [toNat_wordNnn, decodeFields, toNat_field]; omega

end Sys2Proof
end

