-- ==== Sys2Proof/Laws/State.lean ====
section
/-! SUPPORT. What each update of State does to each field, true by unfolding, so that no later proof unfolds a
record update. -/

namespace Sys2Proof.Machine

variable (s : State)

/-! setMem -/

@[simp] theorem State.setMem_regs (m : Memory) : (s.setMem m).regs = s.regs := rfl
@[simp] theorem State.setMem_i (m : Memory) : (s.setMem m).i = s.i := rfl
@[simp] theorem State.setMem_pc (m : Memory) : (s.setMem m).pc = s.pc := rfl
@[simp] theorem State.setMem_stack (m : Memory) : (s.setMem m).stack = s.stack := rfl
@[simp] theorem State.setMem_dt (m : Memory) : (s.setMem m).dt = s.dt := rfl
@[simp] theorem State.setMem_st (m : Memory) : (s.setMem m).st = s.st := rfl
@[simp] theorem State.setMem_acc (m : Memory) : (s.setMem m).acc = s.acc := rfl
@[simp] theorem State.setMem_disp (m : Memory) : (s.setMem m).disp = s.disp := rfl
@[simp] theorem State.setMem_keypad (m : Memory) : (s.setMem m).keypad = s.keypad := rfl
@[simp] theorem State.setMem_lastKey (m : Memory) : (s.setMem m).lastKey = s.lastKey := rfl
@[simp] theorem State.setMem_mem (m : Memory) : (s.setMem m).mem = m := rfl
@[simp] theorem State.setMem_fault (m : Memory) : (s.setMem m).fault = s.fault := rfl
@[simp] theorem State.setMem_unhandledCount (m : Memory) : (s.setMem m).unhandledCount = s.unhandledCount := rfl
@[simp] theorem State.setMem_displayChanged (m : Memory) : (s.setMem m).displayChanged = s.displayChanged := rfl
@[simp] theorem State.setMem_warnUnhandled (m : Memory) : (s.setMem m).warnUnhandled = s.warnUnhandled := rfl
@[simp] theorem State.setMem_waitingForKey (m : Memory) : (s.setMem m).waitingForKey = s.waitingForKey := rfl
@[simp] theorem State.setMem_cfg (m : Memory) : (s.setMem m).cfg = s.cfg := rfl
@[simp] theorem State.setMem_inputs (m : Memory) : (s.setMem m).inputs = s.inputs := rfl
@[simp] theorem State.setMem_cycle (m : Memory) : (s.setMem m).cycle = s.cycle := rfl

/-! setRegs -/

@[simp] theorem State.setRegs_regs (r : Vector Byte 16) : (s.setRegs r).regs = r := rfl
@[simp] theorem State.setRegs_i (r : Vector Byte 16) : (s.setRegs r).i = s.i := rfl
@[simp] theorem State.setRegs_pc (r : Vector Byte 16) : (s.setRegs r).pc = s.pc := rfl
@[simp] theorem State.setRegs_stack (r : Vector Byte 16) : (s.setRegs r).stack = s.stack := rfl
@[simp] theorem State.setRegs_dt (r : Vector Byte 16) : (s.setRegs r).dt = s.dt := rfl
@[simp] theorem State.setRegs_st (r : Vector Byte 16) : (s.setRegs r).st = s.st := rfl
@[simp] theorem State.setRegs_acc (r : Vector Byte 16) : (s.setRegs r).acc = s.acc := rfl
@[simp] theorem State.setRegs_disp (r : Vector Byte 16) : (s.setRegs r).disp = s.disp := rfl
@[simp] theorem State.setRegs_keypad (r : Vector Byte 16) : (s.setRegs r).keypad = s.keypad := rfl
@[simp] theorem State.setRegs_lastKey (r : Vector Byte 16) : (s.setRegs r).lastKey = s.lastKey := rfl
@[simp] theorem State.setRegs_mem (r : Vector Byte 16) : (s.setRegs r).mem = s.mem := rfl
@[simp] theorem State.setRegs_fault (r : Vector Byte 16) : (s.setRegs r).fault = s.fault := rfl
@[simp] theorem State.setRegs_unhandledCount (r : Vector Byte 16) : (s.setRegs r).unhandledCount = s.unhandledCount := rfl
@[simp] theorem State.setRegs_displayChanged (r : Vector Byte 16) : (s.setRegs r).displayChanged = s.displayChanged := rfl
@[simp] theorem State.setRegs_warnUnhandled (r : Vector Byte 16) : (s.setRegs r).warnUnhandled = s.warnUnhandled := rfl
@[simp] theorem State.setRegs_waitingForKey (r : Vector Byte 16) : (s.setRegs r).waitingForKey = s.waitingForKey := rfl
@[simp] theorem State.setRegs_cfg (r : Vector Byte 16) : (s.setRegs r).cfg = s.cfg := rfl
@[simp] theorem State.setRegs_inputs (r : Vector Byte 16) : (s.setRegs r).inputs = s.inputs := rfl
@[simp] theorem State.setRegs_cycle (r : Vector Byte 16) : (s.setRegs r).cycle = s.cycle := rfl

/-! setI -/

@[simp] theorem State.setI_regs (a : Addr) : (s.setI a).regs = s.regs := rfl
@[simp] theorem State.setI_i (a : Addr) : (s.setI a).i = a := rfl
@[simp] theorem State.setI_pc (a : Addr) : (s.setI a).pc = s.pc := rfl
@[simp] theorem State.setI_stack (a : Addr) : (s.setI a).stack = s.stack := rfl
@[simp] theorem State.setI_dt (a : Addr) : (s.setI a).dt = s.dt := rfl
@[simp] theorem State.setI_st (a : Addr) : (s.setI a).st = s.st := rfl
@[simp] theorem State.setI_acc (a : Addr) : (s.setI a).acc = s.acc := rfl
@[simp] theorem State.setI_disp (a : Addr) : (s.setI a).disp = s.disp := rfl
@[simp] theorem State.setI_keypad (a : Addr) : (s.setI a).keypad = s.keypad := rfl
@[simp] theorem State.setI_lastKey (a : Addr) : (s.setI a).lastKey = s.lastKey := rfl
@[simp] theorem State.setI_mem (a : Addr) : (s.setI a).mem = s.mem := rfl
@[simp] theorem State.setI_fault (a : Addr) : (s.setI a).fault = s.fault := rfl
@[simp] theorem State.setI_unhandledCount (a : Addr) : (s.setI a).unhandledCount = s.unhandledCount := rfl
@[simp] theorem State.setI_displayChanged (a : Addr) : (s.setI a).displayChanged = s.displayChanged := rfl
@[simp] theorem State.setI_warnUnhandled (a : Addr) : (s.setI a).warnUnhandled = s.warnUnhandled := rfl
@[simp] theorem State.setI_waitingForKey (a : Addr) : (s.setI a).waitingForKey = s.waitingForKey := rfl
@[simp] theorem State.setI_cfg (a : Addr) : (s.setI a).cfg = s.cfg := rfl
@[simp] theorem State.setI_inputs (a : Addr) : (s.setI a).inputs = s.inputs := rfl
@[simp] theorem State.setI_cycle (a : Addr) : (s.setI a).cycle = s.cycle := rfl

/-! setPc -/

@[simp] theorem State.setPc_regs (a : Addr) : (s.setPc a).regs = s.regs := rfl
@[simp] theorem State.setPc_i (a : Addr) : (s.setPc a).i = s.i := rfl
@[simp] theorem State.setPc_pc (a : Addr) : (s.setPc a).pc = a := rfl
@[simp] theorem State.setPc_stack (a : Addr) : (s.setPc a).stack = s.stack := rfl
@[simp] theorem State.setPc_dt (a : Addr) : (s.setPc a).dt = s.dt := rfl
@[simp] theorem State.setPc_st (a : Addr) : (s.setPc a).st = s.st := rfl
@[simp] theorem State.setPc_acc (a : Addr) : (s.setPc a).acc = s.acc := rfl
@[simp] theorem State.setPc_disp (a : Addr) : (s.setPc a).disp = s.disp := rfl
@[simp] theorem State.setPc_keypad (a : Addr) : (s.setPc a).keypad = s.keypad := rfl
@[simp] theorem State.setPc_lastKey (a : Addr) : (s.setPc a).lastKey = s.lastKey := rfl
@[simp] theorem State.setPc_mem (a : Addr) : (s.setPc a).mem = s.mem := rfl
@[simp] theorem State.setPc_fault (a : Addr) : (s.setPc a).fault = s.fault := rfl
@[simp] theorem State.setPc_unhandledCount (a : Addr) : (s.setPc a).unhandledCount = s.unhandledCount := rfl
@[simp] theorem State.setPc_displayChanged (a : Addr) : (s.setPc a).displayChanged = s.displayChanged := rfl
@[simp] theorem State.setPc_warnUnhandled (a : Addr) : (s.setPc a).warnUnhandled = s.warnUnhandled := rfl
@[simp] theorem State.setPc_waitingForKey (a : Addr) : (s.setPc a).waitingForKey = s.waitingForKey := rfl
@[simp] theorem State.setPc_cfg (a : Addr) : (s.setPc a).cfg = s.cfg := rfl
@[simp] theorem State.setPc_inputs (a : Addr) : (s.setPc a).inputs = s.inputs := rfl
@[simp] theorem State.setPc_cycle (a : Addr) : (s.setPc a).cycle = s.cycle := rfl

/-! setStack -/

@[simp] theorem State.setStack_regs (l : List Addr) : (s.setStack l).regs = s.regs := rfl
@[simp] theorem State.setStack_i (l : List Addr) : (s.setStack l).i = s.i := rfl
@[simp] theorem State.setStack_pc (l : List Addr) : (s.setStack l).pc = s.pc := rfl
@[simp] theorem State.setStack_stack (l : List Addr) : (s.setStack l).stack = l := rfl
@[simp] theorem State.setStack_dt (l : List Addr) : (s.setStack l).dt = s.dt := rfl
@[simp] theorem State.setStack_st (l : List Addr) : (s.setStack l).st = s.st := rfl
@[simp] theorem State.setStack_acc (l : List Addr) : (s.setStack l).acc = s.acc := rfl
@[simp] theorem State.setStack_disp (l : List Addr) : (s.setStack l).disp = s.disp := rfl
@[simp] theorem State.setStack_keypad (l : List Addr) : (s.setStack l).keypad = s.keypad := rfl
@[simp] theorem State.setStack_lastKey (l : List Addr) : (s.setStack l).lastKey = s.lastKey := rfl
@[simp] theorem State.setStack_mem (l : List Addr) : (s.setStack l).mem = s.mem := rfl
@[simp] theorem State.setStack_fault (l : List Addr) : (s.setStack l).fault = s.fault := rfl
@[simp] theorem State.setStack_unhandledCount (l : List Addr) : (s.setStack l).unhandledCount = s.unhandledCount := rfl
@[simp] theorem State.setStack_displayChanged (l : List Addr) : (s.setStack l).displayChanged = s.displayChanged := rfl
@[simp] theorem State.setStack_warnUnhandled (l : List Addr) : (s.setStack l).warnUnhandled = s.warnUnhandled := rfl
@[simp] theorem State.setStack_waitingForKey (l : List Addr) : (s.setStack l).waitingForKey = s.waitingForKey := rfl
@[simp] theorem State.setStack_cfg (l : List Addr) : (s.setStack l).cfg = s.cfg := rfl
@[simp] theorem State.setStack_inputs (l : List Addr) : (s.setStack l).inputs = s.inputs := rfl
@[simp] theorem State.setStack_cycle (l : List Addr) : (s.setStack l).cycle = s.cycle := rfl

/-! setDt -/

@[simp] theorem State.setDt_regs (b : Byte) : (s.setDt b).regs = s.regs := rfl
@[simp] theorem State.setDt_i (b : Byte) : (s.setDt b).i = s.i := rfl
@[simp] theorem State.setDt_pc (b : Byte) : (s.setDt b).pc = s.pc := rfl
@[simp] theorem State.setDt_stack (b : Byte) : (s.setDt b).stack = s.stack := rfl
@[simp] theorem State.setDt_dt (b : Byte) : (s.setDt b).dt = b := rfl
@[simp] theorem State.setDt_st (b : Byte) : (s.setDt b).st = s.st := rfl
@[simp] theorem State.setDt_acc (b : Byte) : (s.setDt b).acc = s.acc := rfl
@[simp] theorem State.setDt_disp (b : Byte) : (s.setDt b).disp = s.disp := rfl
@[simp] theorem State.setDt_keypad (b : Byte) : (s.setDt b).keypad = s.keypad := rfl
@[simp] theorem State.setDt_lastKey (b : Byte) : (s.setDt b).lastKey = s.lastKey := rfl
@[simp] theorem State.setDt_mem (b : Byte) : (s.setDt b).mem = s.mem := rfl
@[simp] theorem State.setDt_fault (b : Byte) : (s.setDt b).fault = s.fault := rfl
@[simp] theorem State.setDt_unhandledCount (b : Byte) : (s.setDt b).unhandledCount = s.unhandledCount := rfl
@[simp] theorem State.setDt_displayChanged (b : Byte) : (s.setDt b).displayChanged = s.displayChanged := rfl
@[simp] theorem State.setDt_warnUnhandled (b : Byte) : (s.setDt b).warnUnhandled = s.warnUnhandled := rfl
@[simp] theorem State.setDt_waitingForKey (b : Byte) : (s.setDt b).waitingForKey = s.waitingForKey := rfl
@[simp] theorem State.setDt_cfg (b : Byte) : (s.setDt b).cfg = s.cfg := rfl
@[simp] theorem State.setDt_inputs (b : Byte) : (s.setDt b).inputs = s.inputs := rfl
@[simp] theorem State.setDt_cycle (b : Byte) : (s.setDt b).cycle = s.cycle := rfl

/-! setSt -/

@[simp] theorem State.setSt_regs (b : Byte) : (s.setSt b).regs = s.regs := rfl
@[simp] theorem State.setSt_i (b : Byte) : (s.setSt b).i = s.i := rfl
@[simp] theorem State.setSt_pc (b : Byte) : (s.setSt b).pc = s.pc := rfl
@[simp] theorem State.setSt_stack (b : Byte) : (s.setSt b).stack = s.stack := rfl
@[simp] theorem State.setSt_dt (b : Byte) : (s.setSt b).dt = s.dt := rfl
@[simp] theorem State.setSt_st (b : Byte) : (s.setSt b).st = b := rfl
@[simp] theorem State.setSt_acc (b : Byte) : (s.setSt b).acc = s.acc := rfl
@[simp] theorem State.setSt_disp (b : Byte) : (s.setSt b).disp = s.disp := rfl
@[simp] theorem State.setSt_keypad (b : Byte) : (s.setSt b).keypad = s.keypad := rfl
@[simp] theorem State.setSt_lastKey (b : Byte) : (s.setSt b).lastKey = s.lastKey := rfl
@[simp] theorem State.setSt_mem (b : Byte) : (s.setSt b).mem = s.mem := rfl
@[simp] theorem State.setSt_fault (b : Byte) : (s.setSt b).fault = s.fault := rfl
@[simp] theorem State.setSt_unhandledCount (b : Byte) : (s.setSt b).unhandledCount = s.unhandledCount := rfl
@[simp] theorem State.setSt_displayChanged (b : Byte) : (s.setSt b).displayChanged = s.displayChanged := rfl
@[simp] theorem State.setSt_warnUnhandled (b : Byte) : (s.setSt b).warnUnhandled = s.warnUnhandled := rfl
@[simp] theorem State.setSt_waitingForKey (b : Byte) : (s.setSt b).waitingForKey = s.waitingForKey := rfl
@[simp] theorem State.setSt_cfg (b : Byte) : (s.setSt b).cfg = s.cfg := rfl
@[simp] theorem State.setSt_inputs (b : Byte) : (s.setSt b).inputs = s.inputs := rfl
@[simp] theorem State.setSt_cycle (b : Byte) : (s.setSt b).cycle = s.cycle := rfl

/-! setAcc -/

@[simp] theorem State.setAcc_regs (n : Nat) : (s.setAcc n).regs = s.regs := rfl
@[simp] theorem State.setAcc_i (n : Nat) : (s.setAcc n).i = s.i := rfl
@[simp] theorem State.setAcc_pc (n : Nat) : (s.setAcc n).pc = s.pc := rfl
@[simp] theorem State.setAcc_stack (n : Nat) : (s.setAcc n).stack = s.stack := rfl
@[simp] theorem State.setAcc_dt (n : Nat) : (s.setAcc n).dt = s.dt := rfl
@[simp] theorem State.setAcc_st (n : Nat) : (s.setAcc n).st = s.st := rfl
@[simp] theorem State.setAcc_acc (n : Nat) : (s.setAcc n).acc = n := rfl
@[simp] theorem State.setAcc_disp (n : Nat) : (s.setAcc n).disp = s.disp := rfl
@[simp] theorem State.setAcc_keypad (n : Nat) : (s.setAcc n).keypad = s.keypad := rfl
@[simp] theorem State.setAcc_lastKey (n : Nat) : (s.setAcc n).lastKey = s.lastKey := rfl
@[simp] theorem State.setAcc_mem (n : Nat) : (s.setAcc n).mem = s.mem := rfl
@[simp] theorem State.setAcc_fault (n : Nat) : (s.setAcc n).fault = s.fault := rfl
@[simp] theorem State.setAcc_unhandledCount (n : Nat) : (s.setAcc n).unhandledCount = s.unhandledCount := rfl
@[simp] theorem State.setAcc_displayChanged (n : Nat) : (s.setAcc n).displayChanged = s.displayChanged := rfl
@[simp] theorem State.setAcc_warnUnhandled (n : Nat) : (s.setAcc n).warnUnhandled = s.warnUnhandled := rfl
@[simp] theorem State.setAcc_waitingForKey (n : Nat) : (s.setAcc n).waitingForKey = s.waitingForKey := rfl
@[simp] theorem State.setAcc_cfg (n : Nat) : (s.setAcc n).cfg = s.cfg := rfl
@[simp] theorem State.setAcc_inputs (n : Nat) : (s.setAcc n).inputs = s.inputs := rfl
@[simp] theorem State.setAcc_cycle (n : Nat) : (s.setAcc n).cycle = s.cycle := rfl

/-! setDisp -/

@[simp] theorem State.setDisp_regs (d : Display) : (s.setDisp d).regs = s.regs := rfl
@[simp] theorem State.setDisp_i (d : Display) : (s.setDisp d).i = s.i := rfl
@[simp] theorem State.setDisp_pc (d : Display) : (s.setDisp d).pc = s.pc := rfl
@[simp] theorem State.setDisp_stack (d : Display) : (s.setDisp d).stack = s.stack := rfl
@[simp] theorem State.setDisp_dt (d : Display) : (s.setDisp d).dt = s.dt := rfl
@[simp] theorem State.setDisp_st (d : Display) : (s.setDisp d).st = s.st := rfl
@[simp] theorem State.setDisp_acc (d : Display) : (s.setDisp d).acc = s.acc := rfl
@[simp] theorem State.setDisp_disp (d : Display) : (s.setDisp d).disp = d := rfl
@[simp] theorem State.setDisp_keypad (d : Display) : (s.setDisp d).keypad = s.keypad := rfl
@[simp] theorem State.setDisp_lastKey (d : Display) : (s.setDisp d).lastKey = s.lastKey := rfl
@[simp] theorem State.setDisp_mem (d : Display) : (s.setDisp d).mem = s.mem := rfl
@[simp] theorem State.setDisp_fault (d : Display) : (s.setDisp d).fault = s.fault := rfl
@[simp] theorem State.setDisp_unhandledCount (d : Display) : (s.setDisp d).unhandledCount = s.unhandledCount := rfl
@[simp] theorem State.setDisp_displayChanged (d : Display) : (s.setDisp d).displayChanged = s.displayChanged := rfl
@[simp] theorem State.setDisp_warnUnhandled (d : Display) : (s.setDisp d).warnUnhandled = s.warnUnhandled := rfl
@[simp] theorem State.setDisp_waitingForKey (d : Display) : (s.setDisp d).waitingForKey = s.waitingForKey := rfl
@[simp] theorem State.setDisp_cfg (d : Display) : (s.setDisp d).cfg = s.cfg := rfl
@[simp] theorem State.setDisp_inputs (d : Display) : (s.setDisp d).inputs = s.inputs := rfl
@[simp] theorem State.setDisp_cycle (d : Display) : (s.setDisp d).cycle = s.cycle := rfl

/-! setWaiting -/

@[simp] theorem State.setWaiting_regs (b : Bool) : (s.setWaiting b).regs = s.regs := rfl
@[simp] theorem State.setWaiting_i (b : Bool) : (s.setWaiting b).i = s.i := rfl
@[simp] theorem State.setWaiting_pc (b : Bool) : (s.setWaiting b).pc = s.pc := rfl
@[simp] theorem State.setWaiting_stack (b : Bool) : (s.setWaiting b).stack = s.stack := rfl
@[simp] theorem State.setWaiting_dt (b : Bool) : (s.setWaiting b).dt = s.dt := rfl
@[simp] theorem State.setWaiting_st (b : Bool) : (s.setWaiting b).st = s.st := rfl
@[simp] theorem State.setWaiting_acc (b : Bool) : (s.setWaiting b).acc = s.acc := rfl
@[simp] theorem State.setWaiting_disp (b : Bool) : (s.setWaiting b).disp = s.disp := rfl
@[simp] theorem State.setWaiting_keypad (b : Bool) : (s.setWaiting b).keypad = s.keypad := rfl
@[simp] theorem State.setWaiting_lastKey (b : Bool) : (s.setWaiting b).lastKey = s.lastKey := rfl
@[simp] theorem State.setWaiting_mem (b : Bool) : (s.setWaiting b).mem = s.mem := rfl
@[simp] theorem State.setWaiting_fault (b : Bool) : (s.setWaiting b).fault = s.fault := rfl
@[simp] theorem State.setWaiting_unhandledCount (b : Bool) : (s.setWaiting b).unhandledCount = s.unhandledCount := rfl
@[simp] theorem State.setWaiting_displayChanged (b : Bool) : (s.setWaiting b).displayChanged = s.displayChanged := rfl
@[simp] theorem State.setWaiting_warnUnhandled (b : Bool) : (s.setWaiting b).warnUnhandled = s.warnUnhandled := rfl
@[simp] theorem State.setWaiting_waitingForKey (b : Bool) : (s.setWaiting b).waitingForKey = b := rfl
@[simp] theorem State.setWaiting_cfg (b : Bool) : (s.setWaiting b).cfg = s.cfg := rfl
@[simp] theorem State.setWaiting_inputs (b : Bool) : (s.setWaiting b).inputs = s.inputs := rfl
@[simp] theorem State.setWaiting_cycle (b : Bool) : (s.setWaiting b).cycle = s.cycle := rfl

/-! setFault -/

@[simp] theorem State.setFault_regs (r : Option FaultRecord) : (s.setFault r).regs = s.regs := rfl
@[simp] theorem State.setFault_i (r : Option FaultRecord) : (s.setFault r).i = s.i := rfl
@[simp] theorem State.setFault_pc (r : Option FaultRecord) : (s.setFault r).pc = s.pc := rfl
@[simp] theorem State.setFault_stack (r : Option FaultRecord) : (s.setFault r).stack = s.stack := rfl
@[simp] theorem State.setFault_dt (r : Option FaultRecord) : (s.setFault r).dt = s.dt := rfl
@[simp] theorem State.setFault_st (r : Option FaultRecord) : (s.setFault r).st = s.st := rfl
@[simp] theorem State.setFault_acc (r : Option FaultRecord) : (s.setFault r).acc = s.acc := rfl
@[simp] theorem State.setFault_disp (r : Option FaultRecord) : (s.setFault r).disp = s.disp := rfl
@[simp] theorem State.setFault_keypad (r : Option FaultRecord) : (s.setFault r).keypad = s.keypad := rfl
@[simp] theorem State.setFault_lastKey (r : Option FaultRecord) : (s.setFault r).lastKey = s.lastKey := rfl
@[simp] theorem State.setFault_mem (r : Option FaultRecord) : (s.setFault r).mem = s.mem := rfl
@[simp] theorem State.setFault_fault (r : Option FaultRecord) : (s.setFault r).fault = r := rfl
@[simp] theorem State.setFault_unhandledCount (r : Option FaultRecord) : (s.setFault r).unhandledCount = s.unhandledCount := rfl
@[simp] theorem State.setFault_displayChanged (r : Option FaultRecord) : (s.setFault r).displayChanged = s.displayChanged := rfl
@[simp] theorem State.setFault_warnUnhandled (r : Option FaultRecord) : (s.setFault r).warnUnhandled = s.warnUnhandled := rfl
@[simp] theorem State.setFault_waitingForKey (r : Option FaultRecord) : (s.setFault r).waitingForKey = s.waitingForKey := rfl
@[simp] theorem State.setFault_cfg (r : Option FaultRecord) : (s.setFault r).cfg = s.cfg := rfl
@[simp] theorem State.setFault_inputs (r : Option FaultRecord) : (s.setFault r).inputs = s.inputs := rfl
@[simp] theorem State.setFault_cycle (r : Option FaultRecord) : (s.setFault r).cycle = s.cycle := rfl

/-! setInputs -/

@[simp] theorem State.setInputs_regs (l : List CycleInput) : (s.setInputs l).regs = s.regs := rfl
@[simp] theorem State.setInputs_i (l : List CycleInput) : (s.setInputs l).i = s.i := rfl
@[simp] theorem State.setInputs_pc (l : List CycleInput) : (s.setInputs l).pc = s.pc := rfl
@[simp] theorem State.setInputs_stack (l : List CycleInput) : (s.setInputs l).stack = s.stack := rfl
@[simp] theorem State.setInputs_dt (l : List CycleInput) : (s.setInputs l).dt = s.dt := rfl
@[simp] theorem State.setInputs_st (l : List CycleInput) : (s.setInputs l).st = s.st := rfl
@[simp] theorem State.setInputs_acc (l : List CycleInput) : (s.setInputs l).acc = s.acc := rfl
@[simp] theorem State.setInputs_disp (l : List CycleInput) : (s.setInputs l).disp = s.disp := rfl
@[simp] theorem State.setInputs_keypad (l : List CycleInput) : (s.setInputs l).keypad = s.keypad := rfl
@[simp] theorem State.setInputs_lastKey (l : List CycleInput) : (s.setInputs l).lastKey = s.lastKey := rfl
@[simp] theorem State.setInputs_mem (l : List CycleInput) : (s.setInputs l).mem = s.mem := rfl
@[simp] theorem State.setInputs_fault (l : List CycleInput) : (s.setInputs l).fault = s.fault := rfl
@[simp] theorem State.setInputs_unhandledCount (l : List CycleInput) : (s.setInputs l).unhandledCount = s.unhandledCount := rfl
@[simp] theorem State.setInputs_displayChanged (l : List CycleInput) : (s.setInputs l).displayChanged = s.displayChanged := rfl
@[simp] theorem State.setInputs_warnUnhandled (l : List CycleInput) : (s.setInputs l).warnUnhandled = s.warnUnhandled := rfl
@[simp] theorem State.setInputs_waitingForKey (l : List CycleInput) : (s.setInputs l).waitingForKey = s.waitingForKey := rfl
@[simp] theorem State.setInputs_cfg (l : List CycleInput) : (s.setInputs l).cfg = s.cfg := rfl
@[simp] theorem State.setInputs_inputs (l : List CycleInput) : (s.setInputs l).inputs = l := rfl
@[simp] theorem State.setInputs_cycle (l : List CycleInput) : (s.setInputs l).cycle = s.cycle := rfl

/-! sampleInputs -/

@[simp] theorem State.sampleInputs_regs : s.sampleInputs.regs = s.regs := rfl
@[simp] theorem State.sampleInputs_i : s.sampleInputs.i = s.i := rfl
@[simp] theorem State.sampleInputs_pc : s.sampleInputs.pc = s.pc := rfl
@[simp] theorem State.sampleInputs_stack : s.sampleInputs.stack = s.stack := rfl
@[simp] theorem State.sampleInputs_dt : s.sampleInputs.dt = s.dt := rfl
@[simp] theorem State.sampleInputs_st : s.sampleInputs.st = s.st := rfl
@[simp] theorem State.sampleInputs_acc : s.sampleInputs.acc = s.acc := rfl
@[simp] theorem State.sampleInputs_disp : s.sampleInputs.disp = s.disp := rfl
@[simp] theorem State.sampleInputs_keypad : s.sampleInputs.keypad = s.input.keys := rfl
@[simp] theorem State.sampleInputs_lastKey : s.sampleInputs.lastKey = s.input.edge := rfl
@[simp] theorem State.sampleInputs_mem : s.sampleInputs.mem = s.mem := rfl
@[simp] theorem State.sampleInputs_fault : s.sampleInputs.fault = s.fault := rfl
@[simp] theorem State.sampleInputs_unhandledCount : s.sampleInputs.unhandledCount = s.unhandledCount := rfl
@[simp] theorem State.sampleInputs_displayChanged : s.sampleInputs.displayChanged = false := rfl
@[simp] theorem State.sampleInputs_warnUnhandled : s.sampleInputs.warnUnhandled = false := rfl
@[simp] theorem State.sampleInputs_waitingForKey : s.sampleInputs.waitingForKey = false := rfl
@[simp] theorem State.sampleInputs_cfg : s.sampleInputs.cfg = s.cfg := rfl
@[simp] theorem State.sampleInputs_inputs : s.sampleInputs.inputs = s.inputs := rfl
@[simp] theorem State.sampleInputs_cycle : s.sampleInputs.cycle = s.cycle := rfl

/-! noteUnhandled -/

@[simp] theorem State.noteUnhandled_regs : s.noteUnhandled.regs = s.regs := rfl
@[simp] theorem State.noteUnhandled_i : s.noteUnhandled.i = s.i := rfl
@[simp] theorem State.noteUnhandled_pc : s.noteUnhandled.pc = s.pc := rfl
@[simp] theorem State.noteUnhandled_stack : s.noteUnhandled.stack = s.stack := rfl
@[simp] theorem State.noteUnhandled_dt : s.noteUnhandled.dt = s.dt := rfl
@[simp] theorem State.noteUnhandled_st : s.noteUnhandled.st = s.st := rfl
@[simp] theorem State.noteUnhandled_acc : s.noteUnhandled.acc = s.acc := rfl
@[simp] theorem State.noteUnhandled_disp : s.noteUnhandled.disp = s.disp := rfl
@[simp] theorem State.noteUnhandled_keypad : s.noteUnhandled.keypad = s.keypad := rfl
@[simp] theorem State.noteUnhandled_lastKey : s.noteUnhandled.lastKey = s.lastKey := rfl
@[simp] theorem State.noteUnhandled_mem : s.noteUnhandled.mem = s.mem := rfl
@[simp] theorem State.noteUnhandled_fault : s.noteUnhandled.fault = s.fault := rfl
@[simp] theorem State.noteUnhandled_unhandledCount : s.noteUnhandled.unhandledCount = s.unhandledCount + 1 := rfl
@[simp] theorem State.noteUnhandled_displayChanged : s.noteUnhandled.displayChanged = s.displayChanged := rfl
@[simp] theorem State.noteUnhandled_warnUnhandled : s.noteUnhandled.warnUnhandled = true := rfl
@[simp] theorem State.noteUnhandled_waitingForKey : s.noteUnhandled.waitingForKey = s.waitingForKey := rfl
@[simp] theorem State.noteUnhandled_cfg : s.noteUnhandled.cfg = s.cfg := rfl
@[simp] theorem State.noteUnhandled_inputs : s.noteUnhandled.inputs = s.inputs := rfl
@[simp] theorem State.noteUnhandled_cycle : s.noteUnhandled.cycle = s.cycle := rfl

/-! endCycle -/

@[simp] theorem State.endCycle_regs : s.endCycle.regs = s.regs := rfl
@[simp] theorem State.endCycle_i : s.endCycle.i = s.i := rfl
@[simp] theorem State.endCycle_pc : s.endCycle.pc = s.pc := rfl
@[simp] theorem State.endCycle_stack : s.endCycle.stack = s.stack := rfl
@[simp] theorem State.endCycle_dt : s.endCycle.dt = s.dt := rfl
@[simp] theorem State.endCycle_st : s.endCycle.st = s.st := rfl
@[simp] theorem State.endCycle_acc : s.endCycle.acc = s.acc := rfl
@[simp] theorem State.endCycle_disp : s.endCycle.disp = s.disp := rfl
@[simp] theorem State.endCycle_keypad : s.endCycle.keypad = s.keypad := rfl
@[simp] theorem State.endCycle_lastKey : s.endCycle.lastKey = s.lastKey := rfl
@[simp] theorem State.endCycle_mem : s.endCycle.mem = s.mem := rfl
@[simp] theorem State.endCycle_fault : s.endCycle.fault = s.fault := rfl
@[simp] theorem State.endCycle_unhandledCount : s.endCycle.unhandledCount = s.unhandledCount := rfl
@[simp] theorem State.endCycle_displayChanged : s.endCycle.displayChanged = s.displayChanged := rfl
@[simp] theorem State.endCycle_warnUnhandled : s.endCycle.warnUnhandled = s.warnUnhandled := rfl
@[simp] theorem State.endCycle_waitingForKey : s.endCycle.waitingForKey = s.waitingForKey := rfl
@[simp] theorem State.endCycle_cfg : s.endCycle.cfg = s.cfg := rfl
@[simp] theorem State.endCycle_inputs : s.endCycle.inputs = s.inputs.tail := rfl
@[simp] theorem State.endCycle_cycle : s.endCycle.cycle = s.cycle + 1 := rfl

/-! setV -/

@[simp] theorem State.setV_i (x : RegIdx) (b : Byte) : (s.setV x b).i = s.i := rfl
@[simp] theorem State.setV_pc (x : RegIdx) (b : Byte) : (s.setV x b).pc = s.pc := rfl
@[simp] theorem State.setV_stack (x : RegIdx) (b : Byte) : (s.setV x b).stack = s.stack := rfl
@[simp] theorem State.setV_dt (x : RegIdx) (b : Byte) : (s.setV x b).dt = s.dt := rfl
@[simp] theorem State.setV_st (x : RegIdx) (b : Byte) : (s.setV x b).st = s.st := rfl
@[simp] theorem State.setV_acc (x : RegIdx) (b : Byte) : (s.setV x b).acc = s.acc := rfl
@[simp] theorem State.setV_disp (x : RegIdx) (b : Byte) : (s.setV x b).disp = s.disp := rfl
@[simp] theorem State.setV_keypad (x : RegIdx) (b : Byte) : (s.setV x b).keypad = s.keypad := rfl
@[simp] theorem State.setV_lastKey (x : RegIdx) (b : Byte) : (s.setV x b).lastKey = s.lastKey := rfl
@[simp] theorem State.setV_mem (x : RegIdx) (b : Byte) : (s.setV x b).mem = s.mem := rfl
@[simp] theorem State.setV_fault (x : RegIdx) (b : Byte) : (s.setV x b).fault = s.fault := rfl
@[simp] theorem State.setV_unhandledCount (x : RegIdx) (b : Byte) : (s.setV x b).unhandledCount = s.unhandledCount := rfl
@[simp] theorem State.setV_displayChanged (x : RegIdx) (b : Byte) : (s.setV x b).displayChanged = s.displayChanged := rfl
@[simp] theorem State.setV_warnUnhandled (x : RegIdx) (b : Byte) : (s.setV x b).warnUnhandled = s.warnUnhandled := rfl
@[simp] theorem State.setV_waitingForKey (x : RegIdx) (b : Byte) : (s.setV x b).waitingForKey = s.waitingForKey := rfl
@[simp] theorem State.setV_cfg (x : RegIdx) (b : Byte) : (s.setV x b).cfg = s.cfg := rfl
@[simp] theorem State.setInputs_v (l : List CycleInput) (x : RegIdx) : (s.setInputs l).v x = s.v x := rfl
@[simp] theorem State.setInputs_memRead (l : List CycleInput) (q : Addr) : (s.setInputs l).memRead q = s.memRead q := rfl
@[simp] theorem State.setV_inputs (x : RegIdx) (b : Byte) : (s.setV x b).inputs = s.inputs := rfl
@[simp] theorem State.setV_cycle (x : RegIdx) (b : Byte) : (s.setV x b).cycle = s.cycle := rfl

/-! The accessors `v`, `input` and `memRead` after each update that cannot change them, and `v` after `setV`. -/

@[simp] theorem State.setMem_v (m : Memory) (x : RegIdx) : (s.setMem m).v x = s.v x := rfl
@[simp] theorem State.setMem_input (m : Memory) : (s.setMem m).input = s.input := rfl
@[simp] theorem State.setRegs_input (r : Vector Byte 16) : (s.setRegs r).input = s.input := rfl
@[simp] theorem State.setRegs_memRead (r : Vector Byte 16) (q : Addr) : (s.setRegs r).memRead q = s.memRead q := rfl
@[simp] theorem State.setI_v (a : Addr) (x : RegIdx) : (s.setI a).v x = s.v x := rfl
@[simp] theorem State.setI_input (a : Addr) : (s.setI a).input = s.input := rfl
@[simp] theorem State.setI_memRead (a : Addr) (q : Addr) : (s.setI a).memRead q = s.memRead q := rfl
@[simp] theorem State.setPc_v (a : Addr) (x : RegIdx) : (s.setPc a).v x = s.v x := rfl
@[simp] theorem State.setPc_input (a : Addr) : (s.setPc a).input = s.input := rfl
@[simp] theorem State.setPc_memRead (a : Addr) (q : Addr) : (s.setPc a).memRead q = s.memRead q := rfl
@[simp] theorem State.setStack_v (l : List Addr) (x : RegIdx) : (s.setStack l).v x = s.v x := rfl
@[simp] theorem State.setStack_input (l : List Addr) : (s.setStack l).input = s.input := rfl
@[simp] theorem State.setStack_memRead (l : List Addr) (q : Addr) : (s.setStack l).memRead q = s.memRead q := rfl
@[simp] theorem State.setDt_v (b : Byte) (x : RegIdx) : (s.setDt b).v x = s.v x := rfl
@[simp] theorem State.setDt_input (b : Byte) : (s.setDt b).input = s.input := rfl
@[simp] theorem State.setDt_memRead (b : Byte) (q : Addr) : (s.setDt b).memRead q = s.memRead q := rfl
@[simp] theorem State.setSt_v (b : Byte) (x : RegIdx) : (s.setSt b).v x = s.v x := rfl
@[simp] theorem State.setSt_input (b : Byte) : (s.setSt b).input = s.input := rfl
@[simp] theorem State.setSt_memRead (b : Byte) (q : Addr) : (s.setSt b).memRead q = s.memRead q := rfl
@[simp] theorem State.setAcc_v (n : Nat) (x : RegIdx) : (s.setAcc n).v x = s.v x := rfl
@[simp] theorem State.setAcc_input (n : Nat) : (s.setAcc n).input = s.input := rfl
@[simp] theorem State.setAcc_memRead (n : Nat) (q : Addr) : (s.setAcc n).memRead q = s.memRead q := rfl
@[simp] theorem State.setDisp_v (d : Display) (x : RegIdx) : (s.setDisp d).v x = s.v x := rfl
@[simp] theorem State.setDisp_input (d : Display) : (s.setDisp d).input = s.input := rfl
@[simp] theorem State.setDisp_memRead (d : Display) (q : Addr) : (s.setDisp d).memRead q = s.memRead q := rfl
@[simp] theorem State.setWaiting_v (b : Bool) (x : RegIdx) : (s.setWaiting b).v x = s.v x := rfl
@[simp] theorem State.setWaiting_input (b : Bool) : (s.setWaiting b).input = s.input := rfl
@[simp] theorem State.setWaiting_memRead (b : Bool) (q : Addr) : (s.setWaiting b).memRead q = s.memRead q := rfl
@[simp] theorem State.setFault_v (r : Option FaultRecord) (x : RegIdx) : (s.setFault r).v x = s.v x := rfl
@[simp] theorem State.setFault_input (r : Option FaultRecord) : (s.setFault r).input = s.input := rfl
@[simp] theorem State.setFault_memRead (r : Option FaultRecord) (q : Addr) : (s.setFault r).memRead q = s.memRead q := rfl
@[simp] theorem State.sampleInputs_v (x : RegIdx) : s.sampleInputs.v x = s.v x := rfl
@[simp] theorem State.sampleInputs_input : s.sampleInputs.input = s.input := rfl
@[simp] theorem State.sampleInputs_memRead (q : Addr) : s.sampleInputs.memRead q = s.memRead q := rfl
@[simp] theorem State.noteUnhandled_v (x : RegIdx) : s.noteUnhandled.v x = s.v x := rfl
@[simp] theorem State.noteUnhandled_input : s.noteUnhandled.input = s.input := rfl
@[simp] theorem State.noteUnhandled_memRead (q : Addr) : s.noteUnhandled.memRead q = s.memRead q := rfl
@[simp] theorem State.endCycle_v (x : RegIdx) : s.endCycle.v x = s.v x := rfl
@[simp] theorem State.endCycle_memRead (q : Addr) : s.endCycle.memRead q = s.memRead q := rfl
@[simp] theorem State.setV_input (x : RegIdx) (b : Byte) : (s.setV x b).input = s.input := rfl
@[simp] theorem State.setV_memRead (x : RegIdx) (b : Byte) (q : Addr) : (s.setV x b).memRead q = s.memRead q := rfl
@[simp] theorem State.setRegs_v (r : Vector Byte 16) (x : RegIdx) : (s.setRegs r).v x = r[x] := rfl

/-- A register written holds the value; every other register is unchanged (10_state.md R21). -/
@[simp] theorem State.v_setV (x y : RegIdx) (b : Byte) :
    (s.setV x b).v y = if y = x then b else s.v y := by
  have h : (x.val = y.val) ↔ (y = x) := by rw [eq_comm, Fin.ext_iff]
  simp [State.setV, State.v, Vector.getElem_set, h]

/-- Registers agree when every register read agrees. -/
theorem State.regs_ext {s t : State} (h : ∀ x, s.v x = t.v x) : s.regs = t.regs := by
  apply Vector.ext
  intro k hk
  exact h ⟨k, hk⟩

end Sys2Proof.Machine
end

