-- ==== Sys2Proof/Laws/Draw.lean ====
section
/-! SUPPORT. What drawing does to one pixel and to the collision flag, row by row (42_display.md R161, R163). -/

namespace Sys2Proof.Machine

/-- Flipping a pixel changes that pixel and no other. -/
@[simp] theorem Display.pixel_flip (d : Display) (c c' : Fin 64) (r r' : Fin 32) :
    (d.flip c r).pixel c' r' = if c' = c ∧ r' = r then !d.pixel c r else d.pixel c' r' := by
  simp only [Display.pixel, Display.flip, Fin.getElem_fin]
  by_cases hc : c' = c
  · subst hc
    by_cases hr : r' = r
    · subst hr; simp
    · have : r.val ≠ r'.val := fun h => hr (Fin.ext h.symm)
      simp [hr, this]
  · have : c.val ≠ c'.val := fun h => hc (Fin.ext h.symm)
    simp [hc, this]

@[simp] theorem Display.pixel_clear (c : Fin 64) (r : Fin 32) : Display.clear.pixel c r = false := by
  simp [Display.pixel, Display.clear]

/-- Displays agree when every pixel does. -/
theorem Display.ext_pixel {d e : Display} (h : ∀ c r, d.pixel c r = e.pixel c r) : d = e := by
  apply Vector.ext
  intro c hc
  apply Vector.ext
  intro r hr
  exact h ⟨c, hc⟩ ⟨r, hr⟩

/-- Two columns of one sprite row are two columns of the display: a sprite is at most 64 wide (R163). -/
theorem spriteCol_inj (cx : Byte) {k l : Nat} (hk : k < 64) (hl : l < 64)
    (h : spriteCol cx k = spriteCol cx l) : k = l := by
  simp only [spriteCol, Fin.ext_iff, Fin.val_ofNat] at h
  omega

/-- Two rows of one sprite are two rows of the display: a sprite is at most 32 high (R163). -/
theorem spriteRow_inj (cy : Byte) {k l : Nat} (hk : k < 32) (hl : l < 32)
    (h : spriteRow cy k = spriteRow cy l) : k = l := by
  simp only [spriteRow, Fin.ext_iff, Fin.val_ofNat] at h
  omega

/-- The pixels that drawing one more set bit changes, given which pixels were changed before. -/
theorem drawPixel_changes (p q : Display × Bool) (c : Fin 64) (r : Fin 32) (P : Fin 64 → Fin 32 → Prop)
    (hq : ∀ c' r', q.1.pixel c' r' ≠ p.1.pixel c' r' ↔ P c' r') (hc : ¬ P c r) (c' : Fin 64) (r' : Fin 32) :
    (drawPixel q c r).1.pixel c' r' ≠ p.1.pixel c' r' ↔ P c' r' ∨ (c' = c ∧ r' = r) := by
  simp only [drawPixel, Display.pixel_flip]
  by_cases h : c' = c ∧ r' = r
  · obtain ⟨rfl, rfl⟩ := h
    have : q.1.pixel c' r' = p.1.pixel c' r' := by
      by_contra hne; exact hc ((hq c' r').mp hne)
    simp [this]
  · simp only [h, if_false, or_false]
    exact hq c' r'

/-- The first `n` columns of a sprite row: which pixels change, and what the flag becomes. -/
theorem drawCols_spec (cx : Byte) (r : Fin 32) (b : Byte) (p : Display × Bool) (n : Nat) (hn : n ≤ 8) :
    let q := (List.range n).foldl
      (fun q col => if spriteBit b col then drawPixel q (spriteCol cx col) r else q) p
    (∀ c' r', q.1.pixel c' r' ≠ p.1.pixel c' r'
        ↔ (∃ col < n, spriteBit b col = true ∧ c' = spriteCol cx col) ∧ r' = r)
      ∧ (q.2 = true ↔ p.2 = true ∨
          ∃ col < n, spriteBit b col = true ∧ p.1.pixel (spriteCol cx col) r = true) := by
  induction n with
  | zero => simp
  | succ n ih =>
    obtain ⟨ih1, ih2⟩ := ih (by omega)
    rw [List.range_succ, List.foldl_append, List.foldl_cons, List.foldl_nil]
    generalize (List.range n).foldl
      (fun q col => if spriteBit b col then drawPixel q (spriteCol cx col) r else q) p = q at ih1 ih2
    have hnew : ¬ ((∃ col < n, spriteBit b col = true ∧ spriteCol cx n = spriteCol cx col) ∧ r = r) := by
      rintro ⟨⟨col, hc, -, he⟩, -⟩
      have := spriteCol_inj cx (by omega) (by omega) he
      omega
    have hsplit : ∀ P : Nat → Prop, (∃ col < n + 1, spriteBit b col = true ∧ P col)
        ↔ (∃ col < n, spriteBit b col = true ∧ P col) ∨ (spriteBit b n = true ∧ P n) := by
      intro P
      constructor
      · rintro ⟨col, h1, h2⟩
        by_cases h4 : col = n
        · subst h4; exact .inr h2
        · exact .inl ⟨col, by omega, h2⟩
      · rintro (⟨col, h1, h2⟩ | h2)
        · exact ⟨col, by omega, h2⟩
        · exact ⟨n, by omega, h2⟩
    simp only [hsplit]
    by_cases hb : spriteBit b n = true
    · simp only [hb, if_true, true_and]
      refine ⟨fun c' r' => ?_, ?_⟩
      · rw [drawPixel_changes p q _ _ _ ih1 hnew, or_and_right]
      · have hq : q.1.pixel (spriteCol cx n) r = p.1.pixel (spriteCol cx n) r := by
          by_contra h; exact hnew ((ih1 _ _).mp h)
        simp only [drawPixel, Bool.or_eq_true, ih2, hq, or_assoc]
    · simp only [hb, Bool.false_eq_true, if_false, false_and, or_false]
      exact ⟨ih1, ih2⟩

/-- One sprite row: the pixels it covers with a set bit change, and the flag is set if one of them was on. -/
theorem drawRow_spec (cx : Byte) (r : Fin 32) (b : Byte) (p : Display × Bool) :
    (∀ c' r', (drawRow cx r b p).1.pixel c' r' ≠ p.1.pixel c' r'
        ↔ (∃ col < 8, spriteBit b col = true ∧ c' = spriteCol cx col) ∧ r' = r)
      ∧ ((drawRow cx r b p).2 = true ↔ p.2 = true ∨
          ∃ col < 8, spriteBit b col = true ∧ p.1.pixel (spriteCol cx col) r = true) :=
  drawCols_spec cx r b p 8 (le_refl 8)

/-- All sprite rows: the pixels some row covers with a set bit change, and the flag is set if one of them
was on before the drawing (R163: no pixel is covered twice). -/
theorem drawRows_spec (cx cy : Byte) (row : Nat) (bs : List Byte) (p : Display × Bool)
    (hlen : row + bs.length ≤ 32) :
    (∀ c' r', (drawRows cx cy row bs p).1.pixel c' r' ≠ p.1.pixel c' r'
        ↔ ∃ k b, bs[k]? = some b ∧ (∃ col < 8, spriteBit b col = true ∧ c' = spriteCol cx col)
            ∧ r' = spriteRow cy (row + k))
      ∧ ((drawRows cx cy row bs p).2 = true ↔ p.2 = true ∨
          ∃ k b, bs[k]? = some b ∧ ∃ col < 8, spriteBit b col = true
            ∧ p.1.pixel (spriteCol cx col) (spriteRow cy (row + k)) = true) := by
  induction bs generalizing row p with
  | nil => simp [drawRows]
  | cons b bs ih =>
    have hl : row + 1 + bs.length ≤ 32 := by simp only [List.length_cons] at hlen; omega
    obtain ⟨ih1, ih2⟩ := ih (row + 1) (drawRow cx (spriteRow cy row) b p) hl
    obtain ⟨hr1, hr2⟩ := drawRow_spec cx (spriteRow cy row) b p
    have hrow : ∀ k e, bs[k]? = some e → spriteRow cy (row + 1 + k) ≠ spriteRow cy row := by
      intro k e hk heq
      have hk' : k < bs.length := (List.getElem?_eq_some_iff.mp hk).1
      have := spriteRow_inj cy (by omega) (by omega) heq
      omega
    have hsame : ∀ c' k e, bs[k]? = some e →
        (drawRow cx (spriteRow cy row) b p).1.pixel c' (spriteRow cy (row + 1 + k))
          = p.1.pixel c' (spriteRow cy (row + 1 + k)) := by
      intro c' k e hk
      by_contra hne
      exact hrow k e hk ((hr1 _ _).mp hne).2
    have hsplit : ∀ P : Nat → Byte → Prop, (∃ k e, (b :: bs)[k]? = some e ∧ P k e)
        ↔ P 0 b ∨ ∃ k e, bs[k]? = some e ∧ P (k + 1) e := by
      intro P
      constructor
      · rintro ⟨_ | k, e, hk, hp⟩
        · simp only [List.getElem?_cons_zero, Option.some.injEq] at hk
          subst hk; exact .inl hp
        · exact .inr ⟨k, e, by simpa using hk, hp⟩
      · rintro (hp | ⟨k, e, hk, hp⟩)
        · exact ⟨0, b, by simp, hp⟩
        · exact ⟨k + 1, e, by simpa using hk, hp⟩
    have hadd : ∀ k, spriteRow cy (row + (k + 1)) = spriteRow cy (row + 1 + k) := fun k => by
      congr 1; omega
    simp only [drawRows, hsplit, hadd, Nat.add_zero]
    refine ⟨fun c' r' => ?_, ?_⟩
    · by_cases hex : ∃ k e, bs[k]? = some e ∧ (∃ col < 8, spriteBit e col = true ∧ c' = spriteCol cx col)
          ∧ r' = spriteRow cy (row + 1 + k)
      · have hch := (ih1 c' r').mpr hex
        obtain ⟨k, e, hk, -, rfl⟩ := hex
        rw [hsame c' k e hk] at hch
        exact ⟨fun _ => .inr ((ih1 _ _).mp (by rw [hsame c' k e hk]; exact hch)), fun _ => hch⟩
      · have hst : (drawRows cx cy (row + 1) bs (drawRow cx (spriteRow cy row) b p)).1.pixel c' r'
            = (drawRow cx (spriteRow cy row) b p).1.pixel c' r' := by
          by_contra hne; exact hex ((ih1 c' r').mp hne)
        rw [hst, hr1]
        exact ⟨.inl, fun h => h.resolve_right hex⟩
    · rw [ih2, hr2, or_assoc]
      apply or_congr_right
      apply or_congr_right
      constructor
      · rintro ⟨k, e, hk, col, h1, h2, h3⟩
        exact ⟨k, e, hk, col, h1, h2, by rwa [hsame _ k e hk] at h3⟩
      · rintro ⟨k, e, hk, col, h1, h2, h3⟩
        exact ⟨k, e, hk, col, h1, h2, by rwa [hsame _ k e hk]⟩

/-- The bytes a sprite reads, by row. -/
theorem State.memReadList_getElem? (s : State) (base : Addr) (n k : Nat) :
    (s.memReadList base n)[k]? = if k < n then some (s.memRead (base + BitVec.ofNat 12 k)) else none := by
  simp only [State.memReadList, List.getElem?_map]
  split
  · next h => simp [h]
  · next h => simp [h]

end Sys2Proof.Machine
end

