-- ==== Sys2Proof/Laws/Memory.lean ====
section
/-! SUPPORT. The laws of memory: a read after a write, and the canonical form that every write keeps
(20_memory.md R51, R55, R57). -/

namespace Sys2Proof.Machine

theorem Memory.lookup_insert (a b : Nat) (v : Byte) (m : Memory) :
    Memory.lookup b (Memory.insert a v m) = if b = a then some v else Memory.lookup b m := by
  induction m with
  | nil => simp [Memory.insert, Memory.lookup]
  | cons c m ih =>
    obtain ⟨k, w⟩ := c
    simp only [Memory.insert]
    split
    · rfl
    · split
      · next h => subst h; by_cases hb : b = a <;> simp [Memory.lookup, hb]
      · next h =>
        simp only [Memory.lookup, ih]
        by_cases hb : b = a
        · subst hb; simp [h]
        · simp [hb]

theorem Memory.lookup_erase (a b : Nat) (m : Memory) :
    Memory.lookup b (m.erase a) = if b = a then none else Memory.lookup b m := by
  induction m with
  | nil => simp [Memory.erase, Memory.lookup]
  | cons c m ih =>
    obtain ⟨k, w⟩ := c
    simp only [Memory.erase] at ih ⊢
    by_cases hk : k = a
    · subst hk
      by_cases hb : b = k <;> simp_all [Memory.lookup]
    · by_cases hb : b = a
      · subst hb; simp_all [Memory.lookup, Ne.symm hk]
      · simp_all [Memory.lookup]

/-- Reading after a write, whatever list the memory is. -/
theorem Memory.read_write (bg : Nat → Byte) (m : Memory) (a b : Nat) (v : Byte) :
    (Memory.lookup b (m.write bg a v)).getD (bg b)
      = if b = a then v else (Memory.lookup b m).getD (bg b) := by
  simp only [Memory.write]
  split
  · next h => rw [Memory.lookup_erase]; split <;> simp_all
  · rw [Memory.lookup_insert]; split <;> simp_all

theorem Memory.all_lt_insert (c a : Nat) (v : Byte) (m : Memory) (h : c < a)
    (hm : (m.all fun e => decide (c < e.1)) = true) :
    ((Memory.insert a v m).all fun e => decide (c < e.1)) = true := by
  induction m with
  | nil => simp [Memory.insert, h]
  | cons e m ih =>
    obtain ⟨k, w⟩ := e
    simp only [List.all_cons, Bool.and_eq_true] at hm
    simp only [Memory.insert]
    split
    · simp only [List.all_cons, Bool.and_eq_true, decide_eq_true_eq]
      exact ⟨h, by simpa using hm.1, hm.2⟩
    · split
      · simp only [List.all_cons, Bool.and_eq_true, decide_eq_true_eq]
        exact ⟨h, hm.2⟩
      · simp only [List.all_cons, Bool.and_eq_true]
        exact ⟨hm.1, ih hm.2⟩

theorem Memory.wf_insert (bg : Nat → Byte) (a : Nat) (v : Byte) (m : Memory) (ha : a < 4096)
    (hv : v ≠ bg a) (hm : Memory.wf bg m = true) : Memory.wf bg (Memory.insert a v m) = true := by
  induction m with
  | nil => simp [Memory.insert, Memory.wf, ha, hv]
  | cons c m ih =>
    obtain ⟨k, w⟩ := c
    have hm' := hm
    simp only [Memory.wf, Bool.and_eq_true, decide_eq_true_eq, bne_iff_ne, ne_eq] at hm
    obtain ⟨⟨⟨hk, hw⟩, hall⟩, hrest⟩ := hm
    simp only [Memory.insert]
    split
    · next h =>
      rw [Memory.wf]
      simp only [List.all_cons, Bool.and_eq_true, decide_eq_true_eq, bne_iff_ne, ne_eq]
      refine ⟨⟨⟨ha, hv⟩, h, ?_⟩, hm'⟩
      simp only [List.all_eq_true, decide_eq_true_eq] at hall ⊢
      exact fun e he => lt_trans h (hall e he)
    · split
      · next h => subst h; simp [Memory.wf, ha, hv, hall, hrest]
      · next h1 h2 =>
        have hlt : k < a := by omega
        simp [Memory.wf, hk, hw, ih hrest, Memory.all_lt_insert k a v m hlt hall]

theorem Memory.wf_filter (bg : Nat → Byte) (p : Host.Cell → Bool) (m : Memory)
    (hm : Memory.wf bg m = true) : Memory.wf bg (m.filter p) = true := by
  induction m with
  | nil => simp [Memory.wf]
  | cons c m ih =>
    obtain ⟨k, w⟩ := c
    simp only [Memory.wf, Bool.and_eq_true] at hm
    obtain ⟨⟨⟨hk, hw⟩, hall⟩, hrest⟩ := hm
    by_cases hp : p (k, w) = true
    · rw [List.filter_cons_of_pos hp]
      simp only [Memory.wf, Bool.and_eq_true]
      refine ⟨⟨⟨hk, hw⟩, ?_⟩, ih hrest⟩
      simp only [List.all_eq_true] at hall ⊢
      exact fun e he => hall e (List.mem_filter.mp he).1
    · rw [List.filter_cons_of_neg hp]
      exact ih hrest

/-- A write keeps the canonical form. -/
theorem Memory.wf_write (bg : Nat → Byte) (m : Memory) (a : Nat) (v : Byte) (ha : a < 4096)
    (hm : Memory.wf bg m = true) : Memory.wf bg (m.write bg a v) = true := by
  simp only [Memory.write]
  split
  · exact Memory.wf_filter bg _ m hm
  · next h => exact Memory.wf_insert bg a v m ha h hm

/-- A write of one byte changes the memory field only. -/
theorem State.memWrite_eq (s : State) (a : Addr) (v : Byte) :
    s.memWrite a v = s.setMem (s.memWrite a v).mem := rfl

/-- A write of bytes changes the memory field only. -/
theorem State.memWriteList_eq (s : State) (a : Addr) (bs : List Byte) :
    s.memWriteList a bs = s.setMem (s.memWriteList a bs).mem := by
  induction bs generalizing s a with
  | nil => rfl
  | cons v vs ih => rw [State.memWriteList, ih]; rfl

/-- Reading one byte after writing one (20_memory.md R55). -/
@[simp] theorem State.memRead_memWrite (s : State) (a b : Addr) (v : Byte) :
    (s.memWrite a v).memRead b = if b = a then v else s.memRead b := by
  have h := Memory.read_write s.cfg.resetByte s.mem a.toNat b.toNat v
  simp only [BitVec.toNat_inj] at h
  exact h

/-- Reading one byte after writing a run of them: the run's byte, or the old one outside it. -/
theorem State.memRead_memWriteList (s : State) (a b : Addr) (bs : List Byte) (h : bs.length ≤ 4096) :
    (s.memWriteList a bs).memRead b = (bs[(b - a).toNat]?).getD (s.memRead b) := by
  induction bs generalizing s a with
  | nil => simp [State.memWriteList]
  | cons v vs ih =>
    have hl : vs.length < 4096 := by simpa using h
    rw [State.memWriteList, ih _ _ (by omega), State.memRead_memWrite]
    by_cases hb : b = a
    · subst hb
      simp [List.getElem?_eq_none (show vs.length ≤ 4095 by omega)]
    · have h1 : (b - a).toNat = (b - (a + 1)).toNat + 1 := by
        have : b.toNat ≠ a.toNat := fun e => hb (BitVec.eq_of_toNat_eq e)
        bv_omega
      simp [hb, h1]

/-- Every memory operation keeps the canonical form: one byte. -/
theorem State.wf_memWrite (s : State) (a : Addr) (v : Byte)
    (h : s.mem.wf s.cfg.resetByte = true) :
    (s.memWrite a v).mem.wf s.cfg.resetByte = true :=
  Memory.wf_write _ _ _ _ (by have := a.isLt; omega) h

/-- Every memory operation keeps the canonical form: a run of bytes. -/
theorem State.wf_memWriteList (s : State) (a : Addr) (bs : List Byte)
    (h : s.mem.wf s.cfg.resetByte = true) :
    (s.memWriteList a bs).mem.wf s.cfg.resetByte = true := by
  induction bs generalizing s a with
  | nil => exact h
  | cons v vs ih => exact ih (s.memWrite a v) (a + 1) (s.wf_memWrite a v h)

/-- The reset memory is canonical. -/
theorem State.reset_mem_wf : State.reset.mem.wf State.reset.cfg.resetByte = true := rfl

/-- The bytes of a word placed at pc are what the fetch reads (20_memory.md R52). -/
theorem State.fetch_placeWord (s : State) (w : Word) : (s.placeWord w).fetch = w := by
  have hpc : (s.placeWord w).pc = s.pc := by
    simp only [State.placeWord]; rw [State.memWriteList_eq]; rfl
  have h1 : (s.pc + 1 - s.pc).toNat = 1 := by bv_omega
  simp only [State.fetch, hpc]
  simp only [State.placeWord]
  rw [State.memRead_memWriteList _ _ _ _ (by simp [wordBytes]),
    State.memRead_memWriteList _ _ _ _ (by simp [wordBytes])]
  simp only [h1, BitVec.sub_self, wordBytes]
  simp only [BitVec.toNat_ofNat, Nat.zero_mod, List.getElem?_cons_zero, List.getElem?_cons_succ,
    Option.getD_some]
  ext k hk
  simp only [BitVec.getElem_append, BitVec.getElem_extractLsb']
  split
  · simp [BitVec.getLsbD_eq_getElem hk]
  · next h =>
    rw [show 8 + (k - 8) = k by omega, BitVec.getLsbD_eq_getElem hk]

end Sys2Proof.Machine
end

