-- ==== Sys2Proof/Laws/Frame.lean ====
section
/-! SUPPORT. Frames: what each shared operation leaves unchanged, and how frames compose. A frame of a meaning is
these, composed with `Frame.trans` and weakened with `Frame.mono`. -/

namespace Sys2Proof.Machine

theorem Frame.refl (R : List RegIdx) (P : List Element) (s : State) : Frame R P s s :=
  ⟨fun _ _ => rfl, fun p _ => by cases p <;> simp [Element.Same]⟩

theorem Frame.mono {R R' : List RegIdx} {P P' : List Element} {s t : State} (h : Frame R P s t)
    (hR : R ⊆ R') (hP : P ⊆ P') : Frame R' P' s t :=
  ⟨fun r hr => h.1 r fun m => hr (hR m), fun p hp => h.2 p fun m => hp (hP m)⟩

theorem Element.Same.trans {p : Element} {s t u : State} (h : p.Same s t) (h' : p.Same t u) :
    p.Same s u := by
  cases p
  case mem => exact fun a => (h' a).trans (h a)
  all_goals exact Eq.trans h' h

theorem Frame.trans {R R' : List RegIdx} {P P' : List Element} {s t u : State} (h : Frame R P s t)
    (h' : Frame R' P' t u) : Frame (R ++ R') (P ++ P') s u := by
  refine ⟨fun r hr => ?_, fun p hp => ?_⟩
  · simp only [List.mem_append, not_or] at hr
    exact (h'.1 r hr.2).trans (h.1 r hr.1)
  · simp only [List.mem_append, not_or] at hp
    exact (h.2 p hp.1).trans (h'.2 p hp.2)

theorem frame_setV (s : State) (x : RegIdx) (b : Byte) : Frame [x] [] s (s.setV x b) :=
  ⟨fun r hr => by simp at hr; simp [hr], fun p _ => by cases p <;> simp [Element.Same]⟩

/-- An update of elements other than the registers keeps every element it does not touch. -/
theorem frame_of_same {P : List Element} {s t : State} (hv : t.regs = s.regs)
    (h : ∀ p, p ∉ P → p.Same s t) : Frame [] P s t :=
  ⟨fun r _ => by simp only [State.v, hv], h⟩

theorem frame_setPc (s : State) (a : Addr) : Frame [] [.pc] s (s.setPc a) :=
  frame_of_same rfl fun p hp => by cases p <;> simp_all [Element.Same]

theorem frame_setI (s : State) (a : Addr) : Frame [] [.index] s (s.setI a) :=
  frame_of_same rfl fun p hp => by cases p <;> simp_all [Element.Same]

theorem frame_setStack (s : State) (l : List Addr) : Frame [] [.stack] s (s.setStack l) :=
  frame_of_same rfl fun p hp => by cases p <;> simp_all [Element.Same]

theorem frame_setDt (s : State) (b : Byte) : Frame [] [.dt] s (s.setDt b) :=
  frame_of_same rfl fun p hp => by cases p <;> simp_all [Element.Same]

theorem frame_setSt (s : State) (b : Byte) : Frame [] [.st] s (s.setSt b) :=
  frame_of_same rfl fun p hp => by cases p <;> simp_all [Element.Same]

theorem frame_setAcc (s : State) (n : Nat) : Frame [] [.acc] s (s.setAcc n) :=
  frame_of_same rfl fun p hp => by cases p <;> simp_all [Element.Same]

theorem frame_setDisp (s : State) (d : Display) : Frame [] [.disp] s (s.setDisp d) :=
  frame_of_same rfl fun p hp => by cases p <;> simp_all [Element.Same]

theorem frame_setMem (s : State) (m : Memory) : Frame [] [.mem] s (s.setMem m) :=
  frame_of_same rfl fun p hp => by cases p <;> simp_all [Element.Same]

theorem frame_setWaiting (s : State) (b : Bool) : Frame [] [.waitingForKey] s (s.setWaiting b) :=
  frame_of_same rfl fun p hp => by cases p <;> simp_all [Element.Same]

theorem frame_setFault (s : State) (r : Option FaultRecord) : Frame [] [.fault] s (s.setFault r) :=
  frame_of_same rfl fun p hp => by cases p <;> simp_all [Element.Same]

theorem frame_memWriteList (s : State) (a : Addr) (bs : List Byte) :
    Frame [] [.mem] s (s.memWriteList a bs) := by
  rw [State.memWriteList_eq]; exact frame_setMem s _

theorem frame_skipIf (s : State) (c : Bool) : Frame [] [.pc] s (s.skipIf c) := by
  simp only [State.skipIf]
  split
  · exact frame_setPc s _
  · exact Frame.refl _ _ s

theorem frame_raise (s : State) (k : FaultKind) : Frame [] [.fault] s (s.raise k) := frame_setFault s _

theorem frame_setResultFlag (s : State) (x : RegIdx) (r f : Byte) :
    Frame [x, 15] [] s (s.setResultFlag x r f) :=
  (frame_setV s x r).trans (frame_setV _ 15 f)

theorem frame_timerTick (s : State) (ms : Nat) : Frame [] [.acc, .dt, .st] s (s.timerTick ms) :=
  ((frame_setAcc s _).trans (frame_setDt _ _)).trans (frame_setSt _ _)

theorem frame_beforeExec (s : State) : Frame []
    [.keypad, .lastKey, .displayChanged, .warnUnhandled, .waitingForKey, .pc] s s.beforeExec :=
  frame_of_same rfl fun p hp => by
    cases p <;> simp_all [Element.Same, State.beforeExec, State.advance]

theorem frame_noteUnhandled (s : State) : Frame [] [.unhandledCount, .warnUnhandled] s s.noteUnhandled :=
  frame_of_same rfl fun p hp => by cases p <;> simp_all [Element.Same]

theorem frame_endCycle (s : State) : Frame [] [.inputs, .cycle] s s.endCycle :=
  frame_of_same rfl fun p hp => by cases p <;> simp_all [Element.Same]

theorem frame_renderSignal (s : State) (i : Instr) : Frame [] [.displayChanged] s (s.renderSignal i) := by
  simp only [State.renderSignal]
  split
  · exact frame_of_same rfl fun p hp => by cases p <;> first | rfl | exact fun _ => rfl | simp at hp
  · exact Frame.refl _ _ s

theorem frame_afterExec (s : State) (i : Instr) :
    Frame [] [.displayChanged, .acc, .dt, .st, .inputs, .cycle] s (s.afterExec i) := by
  simp only [State.afterExec]
  split
  · exact (frame_endCycle s).mono (by simp) (by simp)
  · exact ((frame_renderSignal s i).trans (frame_timerTick _ _)).trans (frame_endCycle _)

theorem frame_unhandledCycle (s : State) : Frame []
    [.unhandledCount, .warnUnhandled, .acc, .dt, .st, .inputs, .cycle] s s.unhandledCycle :=
  ((frame_noteUnhandled s).trans (frame_timerTick _ _)).trans (frame_endCycle _)

end Sys2Proof.Machine
end

