-- ==== Sys2Proof/Laws/PerInstr.lean ====
section
/-! SUPPORT. Statements made instruction by instruction: family Row, every instruction is in the opcode map. -/

namespace Sys2Proof

/-- Masks of 30_encoding.md R77 on the word layouts: op alone. -/
theorem wordNnn_and_op (op : BitVec 4) (nnn : Addr) : wordNnn op nnn &&& 0xF000 = wordNnn op 0 := by
  rw [wordNnn, show (0xF000 : Word) = BitVec.allOnes 4 ++ (0 : Addr) from rfl, BitVec.and_append]
  simp only [BitVec.and_allOnes, BitVec.ofNat_eq_ofNat, BitVec.and_zero, wordNnn]

/-- Masks of R77: op alone, on op, x and kk. -/
theorem wordXkk_and_op (op : BitVec 4) (x : RegIdx) (kk : Byte) :
    wordXkk op x kk &&& 0xF000 = wordNnn op 0 := by
  rw [wordXkk, show (0xF000 : Word) = BitVec.allOnes 4 ++ (0 : BitVec 4) ++ (0 : Byte) from rfl,
    BitVec.and_append, BitVec.and_append]
  simp only [BitVec.and_allOnes, BitVec.ofNat_eq_ofNat, BitVec.and_zero]
  revert op; decide

/-- Masks of R77: op alone, on op, x, y and n. -/
theorem wordXyn_and_op (op : BitVec 4) (x y : RegIdx) (n : BitVec 4) :
    wordXyn op x y n &&& 0xF000 = wordNnn op 0 := by
  rw [wordXyn, show (0xF000 : Word) = BitVec.allOnes 4 ++ (0 : BitVec 4) ++ (0 : BitVec 4) ++ (0 : BitVec 4) from rfl,
    BitVec.and_append, BitVec.and_append, BitVec.and_append]
  simp only [BitVec.and_allOnes, BitVec.ofNat_eq_ofNat, BitVec.and_zero]
  revert op; decide

/-- Masks of R77: op and kk. -/
theorem wordXkk_and_kk (op : BitVec 4) (x : RegIdx) (kk : Byte) :
    wordXkk op x kk &&& 0xF0FF = wordXkk op 0 kk := by
  rw [wordXkk, show (0xF0FF : Word) = BitVec.allOnes 4 ++ (0 : BitVec 4) ++ BitVec.allOnes 8 from rfl,
    BitVec.and_append, BitVec.and_append]
  simp only [BitVec.and_allOnes, BitVec.ofNat_eq_ofNat, BitVec.and_zero]
  rfl

/-- Masks of R77: op and n. -/
theorem wordXyn_and_n (op : BitVec 4) (x y : RegIdx) (n : BitVec 4) :
    wordXyn op x y n &&& 0xF00F = wordXyn op 0 0 n := by
  rw [wordXyn, show (0xF00F : Word) = BitVec.allOnes 4 ++ (0 : BitVec 4) ++ (0 : BitVec 4) ++ BitVec.allOnes 4 from rfl,
    BitVec.and_append, BitVec.and_append, BitVec.and_append]
  simp only [BitVec.and_allOnes, BitVec.ofNat_eq_ofNat, BitVec.and_zero]
  rfl

/-- A row that selects the instruction's own word and builds the instruction from its fields. -/
def RowOf (c : Op0Decode) (i : Instr) (r : OpcodeRow) : Prop :=
  r ∈ opcodeMap c ∧ r.selects (encode i) = true ∧ r.build (decodeFields (encode i)) = i

/-- Family Row: the instruction's word matches the mask and match of a row of R77, and that row's handler on the
word's fields is the instruction. -/
def Laws.Row.Statement (i : Instr) : Prop := ∀ c, i.wellFormed c = true → ∃ r, RowOf c i r

/-- A row with the op alone, on the field nnn. -/
theorem rowOf_nnn (c : Op0Decode) (i : Instr) (op : BitVec 4) (nnn : Addr) (build : Fields → Instr)
    (hm : (⟨0xF000, wordNnn op 0, build⟩ : OpcodeRow) ∈ opcodeMap c) (he : encode i = wordNnn op nnn)
    (hb : build (decodeFields (wordNnn op nnn)) = i) : ∃ r, RowOf c i r :=
  ⟨_, hm, by simp only [OpcodeRow.selects, he, wordNnn_and_op, beq_self_eq_true], by rw [he]; exact hb⟩

/-- A row with the op alone, on the fields x and kk. -/
theorem rowOf_xkk (c : Op0Decode) (i : Instr) (op : BitVec 4) (x : RegIdx) (kk : Byte) (build : Fields → Instr)
    (hm : (⟨0xF000, wordNnn op 0, build⟩ : OpcodeRow) ∈ opcodeMap c) (he : encode i = wordXkk op x kk)
    (hb : build (decodeFields (wordXkk op x kk)) = i) : ∃ r, RowOf c i r :=
  ⟨_, hm, by simp only [OpcodeRow.selects, he, wordXkk_and_op, beq_self_eq_true], by rw [he]; exact hb⟩

/-- A row with the op alone, on the fields x, y and n. -/
theorem rowOf_xyn (c : Op0Decode) (i : Instr) (op : BitVec 4) (x y : RegIdx) (n : BitVec 4)
    (build : Fields → Instr)
    (hm : (⟨0xF000, wordNnn op 0, build⟩ : OpcodeRow) ∈ opcodeMap c) (he : encode i = wordXyn op x y n)
    (hb : build (decodeFields (wordXyn op x y n)) = i) : ∃ r, RowOf c i r :=
  ⟨_, hm, by simp only [OpcodeRow.selects, he, wordXyn_and_op, beq_self_eq_true], by rw [he]; exact hb⟩

/-- A row with op and kk. -/
theorem rowOf_x (c : Op0Decode) (i : Instr) (op : BitVec 4) (x : RegIdx) (kk : Byte) (build : Fields → Instr)
    (hm : (⟨0xF0FF, wordXkk op 0 kk, build⟩ : OpcodeRow) ∈ opcodeMap c) (he : encode i = wordXkk op x kk)
    (hb : build (decodeFields (wordXkk op x kk)) = i) : ∃ r, RowOf c i r :=
  ⟨_, hm, by simp only [OpcodeRow.selects, he, wordXkk_and_kk, beq_self_eq_true], by rw [he]; exact hb⟩

/-- A row with op and n. -/
theorem rowOf_xy (c : Op0Decode) (i : Instr) (op : BitVec 4) (x y : RegIdx) (n : BitVec 4)
    (build : Fields → Instr)
    (hm : (⟨0xF00F, wordXyn op 0 0 n, build⟩ : OpcodeRow) ∈ opcodeMap c) (he : encode i = wordXyn op x y n)
    (hb : build (decodeFields (wordXyn op x y n)) = i) : ∃ r, RowOf c i r :=
  ⟨_, hm, by simp only [OpcodeRow.selects, he, wordXyn_and_n, beq_self_eq_true], by rw [he]; exact hb⟩

/-- CLS and RET, whose mask depends on P_OP0_DECODE. -/
theorem rowOf_op0 (c : Op0Decode) (i : Instr) (x : RegIdx) (kk : Byte) (build : Fields → Instr)
    (hx : c.allowsIgnoredX x = true)
    (hm : (⟨c.mask, wordXkk 0 0 kk, build⟩ : OpcodeRow) ∈ opcodeMap c) (he : encode i = wordXkk 0 x kk)
    (hb : build (decodeFields (wordXkk 0 x kk)) = i) : ∃ r, RowOf c i r := by
  refine ⟨_, hm, ?_, by rw [he]; exact hb⟩
  cases c with
  | kkOnly => simp only [OpcodeRow.selects, he, Op0Decode.mask, wordXkk_and_kk, beq_self_eq_true]
  | fullWord =>
    simp only [Op0Decode.allowsIgnoredX, beq_iff_eq] at hx
    subst hx
    simp only [OpcodeRow.selects, he, Op0Decode.mask]
    rw [show (0xFFFF : Word) = BitVec.allOnes 16 from rfl, BitVec.and_allOnes, beq_self_eq_true]

namespace Laws.Row

theorem cls (x : RegIdx) : Statement (.cls x) :=
  fun c h => rowOf_op0 c _ x 0xE0 (fun f => .cls f.x) h
    (List.mem_of_getElem? (i := 0) rfl) rfl (by simp)
theorem ret (x : RegIdx) : Statement (.ret x) :=
  fun c h => rowOf_op0 c _ x 0xEE (fun f => .ret f.x) h
    (List.mem_of_getElem? (i := 1) rfl) rfl (by simp)
theorem sys (nnn : Addr) : Statement (.sys nnn) :=
  fun c _ => rowOf_nnn c _ 0x0 nnn (fun f => .sys f.nnn)
    (List.mem_of_getElem? (i := 2) rfl) rfl (by simp)
theorem jp (nnn : Addr) : Statement (.jp nnn) :=
  fun c _ => rowOf_nnn c _ 0x1 nnn (fun f => .jp f.nnn)
    (List.mem_of_getElem? (i := 3) rfl) rfl (by simp)
theorem call (nnn : Addr) : Statement (.call nnn) :=
  fun c _ => rowOf_nnn c _ 0x2 nnn (fun f => .call f.nnn)
    (List.mem_of_getElem? (i := 4) rfl) rfl (by simp)
theorem seImm (x : RegIdx) (kk : Byte) : Statement (.seImm x kk) :=
  fun c _ => rowOf_xkk c _ 0x3 x kk (fun f => .seImm f.x f.kk)
    (List.mem_of_getElem? (i := 5) rfl) rfl (by simp)
theorem sneImm (x : RegIdx) (kk : Byte) : Statement (.sneImm x kk) :=
  fun c _ => rowOf_xkk c _ 0x4 x kk (fun f => .sneImm f.x f.kk)
    (List.mem_of_getElem? (i := 6) rfl) rfl (by simp)
theorem seReg (x : RegIdx) (y : RegIdx) : Statement (.seReg x y) :=
  fun c _ => rowOf_xy c _ 0x5 x y 0x0 (fun f => .seReg f.x f.y)
    (List.mem_of_getElem? (i := 7) rfl) rfl (by simp)
theorem ldImm (x : RegIdx) (kk : Byte) : Statement (.ldImm x kk) :=
  fun c _ => rowOf_xkk c _ 0x6 x kk (fun f => .ldImm f.x f.kk)
    (List.mem_of_getElem? (i := 8) rfl) rfl (by simp)
theorem addImm (x : RegIdx) (kk : Byte) : Statement (.addImm x kk) :=
  fun c _ => rowOf_xkk c _ 0x7 x kk (fun f => .addImm f.x f.kk)
    (List.mem_of_getElem? (i := 9) rfl) rfl (by simp)
theorem ldReg (x : RegIdx) (y : RegIdx) : Statement (.ldReg x y) :=
  fun c _ => rowOf_xy c _ 0x8 x y 0x0 (fun f => .ldReg f.x f.y)
    (List.mem_of_getElem? (i := 15) rfl) rfl (by simp)
theorem orReg (x : RegIdx) (y : RegIdx) : Statement (.orReg x y) :=
  fun c _ => rowOf_xy c _ 0x8 x y 0x1 (fun f => .orReg f.x f.y)
    (List.mem_of_getElem? (i := 16) rfl) rfl (by simp)
theorem andReg (x : RegIdx) (y : RegIdx) : Statement (.andReg x y) :=
  fun c _ => rowOf_xy c _ 0x8 x y 0x2 (fun f => .andReg f.x f.y)
    (List.mem_of_getElem? (i := 17) rfl) rfl (by simp)
theorem xorReg (x : RegIdx) (y : RegIdx) : Statement (.xorReg x y) :=
  fun c _ => rowOf_xy c _ 0x8 x y 0x3 (fun f => .xorReg f.x f.y)
    (List.mem_of_getElem? (i := 18) rfl) rfl (by simp)
theorem addReg (x : RegIdx) (y : RegIdx) : Statement (.addReg x y) :=
  fun c _ => rowOf_xy c _ 0x8 x y 0x4 (fun f => .addReg f.x f.y)
    (List.mem_of_getElem? (i := 19) rfl) rfl (by simp)
theorem sub (x : RegIdx) (y : RegIdx) : Statement (.sub x y) :=
  fun c _ => rowOf_xy c _ 0x8 x y 0x5 (fun f => .sub f.x f.y)
    (List.mem_of_getElem? (i := 20) rfl) rfl (by simp)
theorem shr (x : RegIdx) (y : RegIdx) : Statement (.shr x y) :=
  fun c _ => rowOf_xy c _ 0x8 x y 0x6 (fun f => .shr f.x f.y)
    (List.mem_of_getElem? (i := 21) rfl) rfl (by simp)
theorem subn (x : RegIdx) (y : RegIdx) : Statement (.subn x y) :=
  fun c _ => rowOf_xy c _ 0x8 x y 0x7 (fun f => .subn f.x f.y)
    (List.mem_of_getElem? (i := 22) rfl) rfl (by simp)
theorem shl (x : RegIdx) (y : RegIdx) : Statement (.shl x y) :=
  fun c _ => rowOf_xy c _ 0x8 x y 0xE (fun f => .shl f.x f.y)
    (List.mem_of_getElem? (i := 23) rfl) rfl (by simp)
theorem sneReg (x : RegIdx) (y : RegIdx) : Statement (.sneReg x y) :=
  fun c _ => rowOf_xy c _ 0x9 x y 0x0 (fun f => .sneReg f.x f.y)
    (List.mem_of_getElem? (i := 10) rfl) rfl (by simp)
theorem ldI (nnn : Addr) : Statement (.ldI nnn) :=
  fun c _ => rowOf_nnn c _ 0xA nnn (fun f => .ldI f.nnn)
    (List.mem_of_getElem? (i := 11) rfl) rfl (by simp)
theorem jpV0 (nnn : Addr) : Statement (.jpV0 nnn) :=
  fun c _ => rowOf_nnn c _ 0xB nnn (fun f => .jpV0 f.nnn)
    (List.mem_of_getElem? (i := 12) rfl) rfl (by simp)
theorem rnd (x : RegIdx) (kk : Byte) : Statement (.rnd x kk) :=
  fun c _ => rowOf_xkk c _ 0xC x kk (fun f => .rnd f.x f.kk)
    (List.mem_of_getElem? (i := 13) rfl) rfl (by simp)
theorem drw (x : RegIdx) (y : RegIdx) (n : BitVec 4) : Statement (.drw x y n) :=
  fun c _ => rowOf_xyn c _ 0xD x y n (fun f => .drw f.x f.y f.n)
    (List.mem_of_getElem? (i := 14) rfl) rfl (by simp)
theorem skp (x : RegIdx) : Statement (.skp x) :=
  fun c _ => rowOf_x c _ 0xE x 0x9E (fun f => .skp f.x)
    (List.mem_of_getElem? (i := 24) rfl) rfl (by simp)
theorem sknp (x : RegIdx) : Statement (.sknp x) :=
  fun c _ => rowOf_x c _ 0xE x 0xA1 (fun f => .sknp f.x)
    (List.mem_of_getElem? (i := 25) rfl) rfl (by simp)
theorem ldFromDt (x : RegIdx) : Statement (.ldFromDt x) :=
  fun c _ => rowOf_x c _ 0xF x 0x07 (fun f => .ldFromDt f.x)
    (List.mem_of_getElem? (i := 26) rfl) rfl (by simp)
theorem ldK (x : RegIdx) : Statement (.ldK x) :=
  fun c _ => rowOf_x c _ 0xF x 0x0A (fun f => .ldK f.x)
    (List.mem_of_getElem? (i := 27) rfl) rfl (by simp)
theorem ldDt (x : RegIdx) : Statement (.ldDt x) :=
  fun c _ => rowOf_x c _ 0xF x 0x15 (fun f => .ldDt f.x)
    (List.mem_of_getElem? (i := 28) rfl) rfl (by simp)
theorem ldSt (x : RegIdx) : Statement (.ldSt x) :=
  fun c _ => rowOf_x c _ 0xF x 0x18 (fun f => .ldSt f.x)
    (List.mem_of_getElem? (i := 29) rfl) rfl (by simp)
theorem addI (x : RegIdx) : Statement (.addI x) :=
  fun c _ => rowOf_x c _ 0xF x 0x1E (fun f => .addI f.x)
    (List.mem_of_getElem? (i := 30) rfl) rfl (by simp)
theorem ldF (x : RegIdx) : Statement (.ldF x) :=
  fun c _ => rowOf_x c _ 0xF x 0x29 (fun f => .ldF f.x)
    (List.mem_of_getElem? (i := 31) rfl) rfl (by simp)
theorem ldB (x : RegIdx) : Statement (.ldB x) :=
  fun c _ => rowOf_x c _ 0xF x 0x33 (fun f => .ldB f.x)
    (List.mem_of_getElem? (i := 32) rfl) rfl (by simp)
theorem storeRegs (x : RegIdx) : Statement (.storeRegs x) :=
  fun c _ => rowOf_x c _ 0xF x 0x55 (fun f => .storeRegs f.x)
    (List.mem_of_getElem? (i := 33) rfl) rfl (by simp)
theorem loadRegs (x : RegIdx) : Statement (.loadRegs x) :=
  fun c _ => rowOf_x c _ 0xF x 0x65 (fun f => .loadRegs f.x)
    (List.mem_of_getElem? (i := 34) rfl) rfl (by simp)

end Laws.Row

end Sys2Proof
end

