-- ==== Sys2Proof/Laws/Step.lean ====
section
/-! SUPPORT. What a step can do, said once: it runs the decoded instruction, or it is an unhandled cycle
(30_encoding.md R82, R85, R86). -/

namespace Sys2Proof.Machine

/-- If a step answers a next state, no fault was recorded and one of the two kinds of cycle happened. -/
theorem step_cases {s t : State} (h : step s = .next t) :
    s.fault = none ∧
      ((∃ i u, decodeWord s.cfg.op0Decode s.fetch = .ok i ∧ exec i s.beforeExec = .next u ∧
          t = u.afterExec i) ∨
       (∃ e, decodeWord s.cfg.op0Decode s.fetch = .error e ∧ t = s.beforeExec.unhandledCycle)) := by
  simp only [step] at h
  split at h
  · cases h
  · next hf =>
    refine ⟨hf, ?_⟩
    split at h
    · next e he => cases h; exact .inr ⟨e, he, rfl⟩
    · next i hi =>
      split at h
      · next u hu => cases h; exact .inl ⟨i, u, hi, hu, rfl⟩
      · cases h
      · cases h

/-- A cycle without a fault recorded and with a decoded instruction that answers a next state. -/
theorem step_of_exec {s t : State} {i : Instr} (hf : s.fault = none)
    (hd : decodeWord s.cfg.op0Decode s.fetch = .ok i) (he : exec i s.beforeExec = .next t) :
    step s = .next (t.afterExec i) := by
  simp only [step, hf, hd, he]

end Sys2Proof.Machine
end

