-- ==== Sys2Proof/Tests/Slice0.lean ====
section
/-! SUPPORT. Tests of the model and witnesses for its statements. A test's expected values come from the vector of
spec/95_test_vectors.md named in its docstring, or from the example of the rule named there; a decoding test's word
is written out from the pattern of 30_encoding.md R77. -/

namespace Sys2Proof.Tests

open Sys2Proof Sys2Proof.Machine

/-! ### Helpers -/

/-- The vectors' start state with these inputs: reset, one scheduled cycle. -/
def idle (inp : CycleInput) : State := State.reset.setInputs [inp]

/-- The vectors' default inputs: no key, no edge, random byte 0, 0 ms. -/
def quiet : CycleInput := ⟨0, none, 0, 0⟩

/-- A start state with some registers set. -/
def withV (s : State) (vs : List (RegIdx × Byte)) : State := vs.foldl (fun t p => t.setV p.1 p.2) s

/-- The vectors' start state: the word at 0x200, default inputs, some registers set. -/
def start (w : Word) (vs : List (RegIdx × Byte)) : State := withV ((idle quiet).placeWord w) vs

/-- The start state under another configuration and other inputs. -/
def startWith (c : Config) (inp : CycleInput) (w : Word) (vs : List (RegIdx × Byte)) : State :=
  withV (State.placeWord { idle inp with cfg := c } w) vs

/-- The start state with the word at another address. -/
def startAt (a : Addr) (w : Word) (vs : List (RegIdx × Byte)) : State :=
  withV (((idle quiet).setPc a).placeWord w) vs

/-- What `f` sees after one step, if there is a next state. -/
def after {α : Type} (s : State) (f : State → α) : Option α :=
  match step s with
  | .next t => some (f t)
  | .fault _ => none
  | .refused _ => none

/-- What `f` sees after the handler alone, if there is a next state. -/
def afterExec {α : Type} (i : Instr) (s : State) (f : State → α) : Option α :=
  match exec i s with
  | .next t => some (f t)
  | .fault _ => none
  | .refused _ => none

theorem next_of_after {α : Type} {s : State} {f : State → α} {a : α} (h : after s f = some a) :
    ∃ t, step s = .next t ∧ f t = a := by
  simp only [after] at h
  split at h
  · exact ⟨_, ‹_›, Option.some.inj h⟩
  · cases h
  · cases h

theorem next_of_afterExec {α : Type} {i : Instr} {s : State} {f : State → α} {a : α}
    (h : afterExec i s f = some a) : ∃ t, exec i s = .next t ∧ f t = a := by
  simp only [afterExec] at h
  split at h
  · exact ⟨_, ‹_›, Option.some.inj h⟩
  · cases h
  · cases h

/-- The configurations of the vectors. -/
def fullWordCfg : Config := { Config.default with op0Decode := .fullWord }
def shiftOffCfg : Config := { Config.default with shiftUsesSecondaryRegister := false }
def addIndexOnCfg : Config := { Config.default with addIndexSetsOverflowFlag := true }
def bulkOffCfg : Config := { Config.default with bulkRegisterOpsIncrementIndex := false }
def clearLogicCfg : Config := { Config.default with vfNonarith := .clearLogic }
def preserveCfg : Config := { Config.default with vfNonarith := .preserve }
def limitTwoCfg : Config := { Config.default with stackLimit := some 2 }

/-! ### WellFormed: an ill-formed term for each check -/

theorem test_wellFormed_refuses_cls_with_x : Instr.wellFormed .fullWord (.cls 1) = false := by decide
theorem test_wellFormed_refuses_ret_with_x : Instr.wellFormed .fullWord (.ret 3) = false := by decide
theorem test_wellFormed_refuses_sys_of_cls : Instr.wellFormed .kkOnly (.sys 0x1E0) = false := by decide
theorem test_wellFormed_refuses_sys_of_ret : Instr.wellFormed .kkOnly (.sys 0x0EE) = false := by decide
theorem test_wellFormed_refuses_sys_0E0 : Instr.wellFormed .fullWord (.sys 0x0E0) = false := by decide
theorem test_wellFormed_allows_sys_1E0 : Instr.wellFormed .fullWord (.sys 0x1E0) = true := by decide

/-! ### Decoding: a word written out for every constructor -/

theorem test_decode_op0 :
    decodeWord .kkOnly 0b0000000011100000 = .ok (.cls 0) ∧ decodeWord .kkOnly 0b0000000011101110 = .ok (.ret 0) ∧
    decodeWord .kkOnly 0b0000000100100011 = .ok (.sys 0x123) ∧ decodeWord .kkOnly 0x01E0 = .ok (.cls 1) ∧
    decodeWord .fullWord 0x01E0 = .ok (.sys 0x1E0) ∧ decodeWord .fullWord 0x03EE = .ok (.sys 0x3EE) := by decide

theorem test_decode_control :
    decodeWord .kkOnly 0b0001101010111100 = .ok (.jp 0xABC) ∧
    decodeWord .kkOnly 0b0010101010111100 = .ok (.call 0xABC) ∧
    decodeWord .kkOnly 0b0011101001000010 = .ok (.seImm 0xA 0x42) ∧
    decodeWord .kkOnly 0b0100101001000010 = .ok (.sneImm 0xA 0x42) ∧
    decodeWord .kkOnly 0b0101000100100000 = .ok (.seReg 1 2) ∧
    decodeWord .kkOnly 0b1001000100100000 = .ok (.sneReg 1 2) ∧
    decodeWord .kkOnly 0b1011001100000000 = .ok (.jpV0 0x300) := by decide

theorem test_decode_alu :
    decodeWord .kkOnly 0b0110101000101111 = .ok (.ldImm 0xA 0x2F) ∧
    decodeWord .kkOnly 0b0111001000100000 = .ok (.addImm 2 0x20) ∧
    decodeWord .kkOnly 0b1000000100100000 = .ok (.ldReg 1 2) ∧
    decodeWord .kkOnly 0b1000000100100001 = .ok (.orReg 1 2) ∧
    decodeWord .kkOnly 0b1000000100100010 = .ok (.andReg 1 2) ∧
    decodeWord .kkOnly 0b1000000100100011 = .ok (.xorReg 1 2) ∧
    decodeWord .kkOnly 0b1000000100100100 = .ok (.addReg 1 2) ∧
    decodeWord .kkOnly 0b1000000100100101 = .ok (.sub 1 2) ∧
    decodeWord .kkOnly 0b1000000100100110 = .ok (.shr 1 2) ∧
    decodeWord .kkOnly 0b1000000100100111 = .ok (.subn 1 2) ∧
    decodeWord .kkOnly 0b1000000100101110 = .ok (.shl 1 2) ∧
    decodeWord .kkOnly 0b1100001100001111 = .ok (.rnd 3 0x0F) := by decide

theorem test_decode_display_keys_timers :
    decodeWord .kkOnly 0b1101000100100101 = .ok (.drw 1 2 5) ∧
    decodeWord .kkOnly 0b1110001110011110 = .ok (.skp 3) ∧
    decodeWord .kkOnly 0b1110001110100001 = .ok (.sknp 3) ∧
    decodeWord .kkOnly 0b1111011000000111 = .ok (.ldFromDt 6) ∧
    decodeWord .kkOnly 0b1111010100001010 = .ok (.ldK 5) ∧
    decodeWord .kkOnly 0b1111011000010101 = .ok (.ldDt 6) ∧
    decodeWord .kkOnly 0b1111011000011000 = .ok (.ldSt 6) := by decide

theorem test_decode_index_memory :
    decodeWord .kkOnly 0b1010000100100011 = .ok (.ldI 0x123) ∧
    decodeWord .kkOnly 0b1111001000011110 = .ok (.addI 2) ∧
    decodeWord .kkOnly 0b1111000100101001 = .ok (.ldF 1) ∧
    decodeWord .kkOnly 0b1111001100110011 = .ok (.ldB 3) ∧
    decodeWord .kkOnly 0b1111001001010101 = .ok (.storeRegs 2) ∧
    decodeWord .kkOnly 0b1111001001100101 = .ok (.loadRegs 2) := by decide

/-- The words of DC1 to DC7 and FT5. -/
theorem test_decode_unhandled :
    decodeWord .kkOnly 0x5121 = .error (.unhandled5 1) ∧ decodeWord .kkOnly 0x9121 = .error (.unhandled9 1) ∧
    decodeWord .kkOnly 0x8128 = .error (.unhandled8 8) ∧ decodeWord .kkOnly 0x812F = .error (.unhandled8 15) ∧
    decodeWord .kkOnly 0xE000 = .error (.unhandledE 0) ∧ decodeWord .kkOnly 0xF000 = .error (.unhandledF 0) ∧
    decodeWord .kkOnly 0xFFFF = .error (.unhandledF 0xFF) ∧ decodeTableWord 16 0xF0FF = none := by decide

theorem test_decodeBytes :
    decodeBytes .kkOnly [0x6A, 0x2F, 0x77] = .ok (.ldImm 0xA 0x2F, [0x77]) ∧
    decodeBytes .kkOnly [0x6A] = .error .truncated ∧ decodeBytes .kkOnly [] = .error .truncated := by decide

theorem test_opcodeMap_has_35_rows :
    (opcodeMap .kkOnly).length = 35 ∧ (opcodeMap .fullWord).length = 35 := by decide

/-! ### Decoder and dispatch, 95_test_vectors.md 2.1 -/

/-- DC1. -/
theorem test_unhandled_5 :
    after (start 0x5121 [(1, 1), (2, 1)]) (fun t => (t.pc, t.unhandledCount, t.warnUnhandled, t.fault))
      = some (0x202, 1, true, none) := by decide

/-- DC15, its second cycle: the count goes on. -/
theorem test_unhandled_counts_on :
    after { start 0x812F [] with unhandledCount := 6 } (fun t => (t.pc, t.unhandledCount)) = some (0x202, 7) := by
  decide

/-- DC14: a fetch at 0xFFF wraps. -/
theorem test_fetch_wraps :
    after (startAt 0xFFF 0x5120 []) (fun t => (t.pc, t.memRead 0xFFF, t.memRead 0x000))
      = some (0x003, 0x51, 0x20) := by decide

/-- DC9, DC11: under full_word these words are SYS. -/
theorem test_full_word_is_sys :
    after (startWith fullWordCfg quiet 0x01E0 []) (fun t => (t.pc, t.displayChanged, t.warnUnhandled))
      = some (0x202, false, false) ∧
    after (startWith fullWordCfg quiet 0x03EE []) (fun t => (t.pc, t.fault)) = some (0x202, none) := by decide

/-! ### Control flow, 95_test_vectors.md 2.2 -/

/-- CF18, DC13. -/
theorem test_sys : after (start 0x0123 []) (fun t => (t.pc, t.warnUnhandled, t.fault)) = some (0x202, false, none) := by
  decide

/-- CF5. -/
theorem test_ret :
    after ((startAt 0x400 0x00EE []).setStack [0x252]) (fun t => (t.pc, t.stack)) = some (0x252, []) := by decide

/-- The start of CF6: RET at 0x234 with an empty stack, DT = 5, 1000 ms. -/
def underflowing : State :=
  (((idle ⟨0, none, 0, 1000⟩).setPc 0x234).placeWord 0x00EE).setDt 5

/-- S6, FT1, CF6: the record, the pc, no tick. -/
theorem test_ret_underflow :
    after underflowing (fun t => (t.fault, t.pc, t.stack)) = some (some ⟨.stackUnderflow, 0x234⟩, 0x236, []) ∧
    after underflowing (fun t => (t.dt, t.acc, faultCode t.fault)) = some (5, 0, 1) := by decide

/-- CF1. -/
theorem test_jp : after (start 0x1ABC []) (fun t => t.pc) = some 0xABC := by decide

/-- CF2, CF3. -/
theorem test_jpV0 :
    after (start 0xB300 [(0, 0x12)]) (fun t => t.pc) = some 0x312 ∧
    after (start 0xBFFF [(0, 0x02)]) (fun t => t.pc) = some 0x001 := by decide

/-- CF4, CF7. -/
theorem test_call :
    after (startAt 0x250 0x2400 []) (fun t => (t.pc, t.stack)) = some (0x400, [0x252]) ∧
    after (startAt 0xFFE 0x2FFE []) (fun t => (t.pc, t.stack)) = some (0xFFE, [0x000]) := by decide

/-- CF8, CF9, FT2: at the limit and below it. -/
theorem test_call_at_limit :
    after (({ startAt 0x300 0x2300 [] with cfg := limitTwoCfg } : State).setStack [0x302, 0x202])
      (fun t => (t.fault, t.pc, t.stack, faultCode t.fault))
      = some (some ⟨.stackOverflow, 0x300⟩, 0x302, [0x302, 0x202], 2) ∧
    after (({ startAt 0x300 0x2300 [] with cfg := limitTwoCfg } : State).setStack [0x202])
      (fun t => (t.fault, t.pc, t.stack)) = some (none, 0x300, [0x302, 0x202]) := by decide

/-- CF10, CF11, CF17. -/
theorem test_seImm :
    after (start 0x3A42 [(0xA, 0x42)]) (fun t => t.pc) = some 0x204 ∧
    after (start 0x3A42 [(0xA, 0x43)]) (fun t => t.pc) = some 0x202 ∧
    after (startAt 0xFFC 0x3000 []) (fun t => t.pc) = some 0x000 := by decide

/-- CF12, CF13. -/
theorem test_sneImm :
    after (start 0x4A42 [(0xA, 0x43)]) (fun t => t.pc) = some 0x204 ∧
    after (start 0x4A42 [(0xA, 0x42)]) (fun t => t.pc) = some 0x202 := by decide

/-- CF14; the no-skip is the rule R109. -/
theorem test_seReg :
    after (start 0x5120 [(1, 7), (2, 7)]) (fun t => t.pc) = some 0x204 ∧
    after (start 0x5120 [(1, 7), (2, 8)]) (fun t => t.pc) = some 0x202 := by decide

/-- CF15, CF16. -/
theorem test_sneReg :
    after (start 0x9120 [(1, 7), (2, 8)]) (fun t => t.pc) = some 0x204 ∧
    after (start 0x9120 [(1, 7), (2, 7)]) (fun t => t.pc) = some 0x202 := by decide

/-! ### Loads, arithmetic and logic, 95_test_vectors.md 2.3 -/

/-- AL1. -/
theorem test_ldImm : after (start 0x6AFF []) (fun t => (t.v 0xA, t.pc)) = some (0xFF, 0x202) := by decide

/-- AL2, AL3. -/
theorem test_addImm :
    after (start 0x7A01 [(0xA, 0xFF), (0xF, 1)]) (fun t => (t.v 0xA, t.v 0xF)) = some (0x00, 0x01) ∧
    after (start 0x7F01 [(0xF, 1)]) (fun t => t.v 0xF) = some 0x02 := by decide

/-- AL4, AL5. -/
theorem test_ldReg :
    after (start 0x8120 [(2, 0x33), (0xF, 1)]) (fun t => (t.v 1, t.v 0xF)) = some (0x33, 0) ∧
    after (startWith clearLogicCfg quiet 0x8120 [(2, 0x33), (0xF, 1)]) (fun t => (t.v 1, t.v 0xF))
      = some (0x33, 1) := by decide

/-- AL6, AL7. -/
theorem test_or :
    after (startWith preserveCfg quiet 0x8121 [(1, 0x0F), (2, 0x30), (0xF, 1)]) (fun t => (t.v 1, t.v 0xF))
      = some (0x3F, 1) ∧
    after (startWith clearLogicCfg quiet 0x8121 [(1, 0x0F), (2, 0x30), (0xF, 1)]) (fun t => (t.v 1, t.v 0xF))
      = some (0x3F, 0) := by decide

/-- AL8. -/
theorem test_and :
    after (start 0x8122 [(1, 0xF0), (2, 0x3C)]) (fun t => (t.v 1, t.v 0xF)) = some (0x30, 0) := by decide

/-- AL9, and the example of R137. -/
theorem test_xor :
    after (start 0x8113 [(1, 0x5A), (0xF, 1)]) (fun t => (t.v 1, t.v 0xF)) = some (0, 0) ∧
    after (start 0x8013 [(0, 0xFF), (1, 0x0F)]) (fun t => (t.v 0, t.v 0xF)) = some (0xF0, 0) := by decide

/-- S1, first and second rows; AL11. -/
theorem test_addReg :
    after (start 0x8014 [(0, 0xC8), (1, 0x64)]) (fun t => (t.v 0, t.v 0xF)) = some (0x2C, 1) ∧
    after (start 0x8014 [(0, 0x7F), (1, 0x80)]) (fun t => (t.v 0, t.v 0xF)) = some (0xFF, 0) := by decide

/-- AL12, AL13: x = 15 and y = 15. -/
theorem test_addReg_with_VF :
    after (start 0x8F14 [(0xF, 0xFF), (1, 0x03)]) (fun t => t.v 0xF) = some 1 ∧
    after (start 0x81F4 [(0xF, 0x01), (1, 0x10)]) (fun t => (t.v 1, t.v 0xF)) = some (0x11, 0) := by decide

/-- S2, the rows of 8xy5. -/
theorem test_sub :
    after (start 0x8015 [(0, 5), (1, 3)]) (fun t => (t.v 0, t.v 0xF)) = some (0x02, 1) ∧
    after (start 0x8015 [(0, 3), (1, 5)]) (fun t => (t.v 0, t.v 0xF)) = some (0xFE, 0) ∧
    after (start 0x8015 [(0, 0x42), (1, 0x42)]) (fun t => (t.v 0, t.v 0xF)) = some (0x00, 1) := by decide

/-- S2, the rows of 8xy7. -/
theorem test_subn :
    after (start 0x8017 [(0, 3), (1, 5)]) (fun t => (t.v 0, t.v 0xF)) = some (0x02, 1) ∧
    after (start 0x8017 [(0, 5), (1, 3)]) (fun t => (t.v 0, t.v 0xF)) = some (0xFE, 0) := by decide

/-- AL18, AL19, AL22. -/
theorem test_shr :
    after (start 0x8126 [(1, 0xAA), (2, 3)]) (fun t => (t.v 1, t.v 0xF, t.v 2)) = some (1, 1, 3) ∧
    after (startWith shiftOffCfg quiet 0x8126 [(1, 0xAA), (2, 3)]) (fun t => (t.v 1, t.v 0xF)) = some (0x55, 0) ∧
    after (start 0x8FF6 [(0xF, 2)]) (fun t => t.v 0xF) = some 0 := by decide

/-- AL20, AL21. -/
theorem test_shl :
    after (start 0x812E [(1, 1), (2, 0x80)]) (fun t => (t.v 1, t.v 0xF)) = some (0, 1) ∧
    after (startWith shiftOffCfg quiet 0x812E [(1, 1), (2, 0x80)]) (fun t => (t.v 1, t.v 0xF)) = some (2, 0) := by
  decide

/-- AL24, AL25. -/
theorem test_rnd :
    after (startWith Config.default ⟨0, none, 0x3C, 0⟩ 0xC5F0 []) (fun t => t.v 5) = some 0x30 ∧
    after (startWith Config.default ⟨0, none, 0xFF, 0⟩ 0xC500 [(5, 0x77)]) (fun t => t.v 5) = some 0 := by decide

/-! ### Display, 95_test_vectors.md 2.4 -/

/-- A display with these pixels on. -/
def withPixels (s : State) (ps : List (Fin 64 × Fin 32)) : State :=
  s.setDisp (ps.foldl (fun d p => d.flip p.1 p.2) Display.clear)

/-- DP6: every pixel off, VF stays, the display is signalled. -/
theorem test_cls :
    after (withPixels (start 0x00E0 [(0xF, 1)]) [(5, 5), (63, 31)])
      (fun t => (t.disp.pixel 5 5, t.disp.pixel 63 31, t.v 0xF, t.displayChanged))
      = some (false, false, 1, true) := by decide

/-- DC8: under kk_only the word 0x01E0 is CLS. -/
theorem test_cls_ignores_x :
    after (withPixels (start 0x01E0 []) [(1, 1)]) (fun t => (t.disp.pixel 1 1, t.displayChanged, t.pc))
      = some (false, true, 0x202) := by decide

/-- DP5: the start is reduced, the sprite read wraps at 0xFFF. -/
theorem test_drw_wraps :
    after ((((start 0xD012 [(0, 70), (1, 40)]).setI 0xFFF).memWrite 0xFFF 0x80).memWrite 0x000 0x40)
      (fun t => (t.disp.pixel 6 8, t.disp.pixel 7 9, t.disp.pixel 7 8, t.v 0xF, t.i, t.displayChanged))
      = some (true, true, false, 0, 0xFFF, true) := by decide

/-- DP3: bit 7 is the leftmost pixel, and a pixel that turns off sets VF. -/
theorem test_drw_collides :
    after (withPixels (((start 0xD011 []).setI 0x300).memWrite 0x300 0x81) [(0, 0)])
      (fun t => (t.disp.pixel 0 0, t.disp.pixel 7 0, t.v 0xF)) = some (false, true, 1) := by decide

/-! ### Keys and timers, 95_test_vectors.md 2.5 and 2.6 -/

/-- KT1, KT2. -/
theorem test_skp :
    after (startWith Config.default ⟨0x0400, none, 0, 0⟩ 0xE39E [(3, 0x1A)]) (fun t => t.pc) = some 0x204 ∧
    after (startWith Config.default ⟨0x0800, none, 0, 0⟩ 0xE39E [(3, 0x1A)]) (fun t => t.pc) = some 0x202 := by
  decide

/-- KT3, KT4. -/
theorem test_sknp :
    after (startWith Config.default ⟨0x0400, none, 0, 0⟩ 0xE3A1 [(3, 0x1A)]) (fun t => t.pc) = some 0x202 ∧
    after (start 0xE3A1 [(3, 0x1A)]) (fun t => t.pc) = some 0x204 := by decide

/-- KT5 (a held key is not an edge), KT8 (the rewind at the top of memory). -/
theorem test_ldK_waits :
    after ((startAt 0x300 0xF50A []).setInputs [⟨0x0010, none, 0, 0⟩]) (fun t => (t.pc, t.waitingForKey, t.v 5))
      = some (0x300, true, 0) ∧
    after (startAt 0xFFE 0xF50A []) (fun t => (t.pc, t.waitingForKey)) = some (0xFFE, true) := by decide

/-- KT6. -/
theorem test_ldK_stores :
    after ((startAt 0x300 0xF50A []).setInputs [⟨0, some 0xF, 0, 0⟩]) (fun t => (t.pc, t.waitingForKey, t.v 5))
      = some (0x302, false, 0x0F) := by decide

/-- KT9: DT is read before the tick of the same cycle. -/
theorem test_ldFromDt :
    after ((startWith Config.default ⟨0, none, 0, 1000⟩ 0xF607 []).setDt 5) (fun t => (t.v 6, t.dt)) = some (5, 0) := by
  decide

/-- KT10: the written value is ticked in the same cycle. -/
theorem test_ldDt :
    after (startWith Config.default ⟨0, none, 0, 17⟩ 0xF615 [(6, 100)]) (fun t => (t.dt, t.acc)) = some (99, 20) := by
  decide

/-- KT11, KT12. -/
theorem test_ldSt :
    after (startWith Config.default ⟨0, none, 0, 17⟩ 0xF618 [(6, 1)]) (fun t => (t.st, t.acc)) = some (0, 20) ∧
    after (startWith Config.default ⟨0, none, 0, 16⟩ 0xF618 [(6, 1)]) (fun t => (t.st, t.acc)) = some (1, 960) := by
  decide

/-- S7, first and last rows; TM3. -/
theorem test_timerTick :
    after ((((startWith Config.default ⟨0, none, 0, 1000⟩ 0x0000 []).setDt 200).setSt 30))
      (fun t => (t.dt, t.st, t.acc)) = some (140, 0, 0) ∧
    after ((((startWith Config.default ⟨0, none, 0, 1000⟩ 0x0000 []).setDt 100).setSt 100).setAcc 999)
      (fun t => (t.dt, t.st, t.acc)) = some (40, 40, 999) ∧
    after (((startWith Config.default ⟨0, none, 0, 17⟩ 0x0000 []).setDt 2).setAcc 980)
      (fun t => (t.dt, t.acc)) = some (0, 0) := by decide

/-! ### Index and memory, 95_test_vectors.md 2.7 -/

/-- IX1. -/
theorem test_ldI : after (start 0xA123 []) (fun t => t.i) = some 0x123 := by decide

/-- IX3, IX4: the quirk on. -/
theorem test_addI_quirk_on :
    after ((startWith addIndexOnCfg quiet 0xF21E [(2, 3), (0xF, 7)]).setI 0xFFE) (fun t => (t.i, t.v 0xF))
      = some (0x001, 1) ∧
    after ((startWith addIndexOnCfg quiet 0xF21E [(2, 3), (0xF, 7)]).setI 0x100) (fun t => (t.i, t.v 0xF))
      = some (0x103, 0) := by decide

/-- IX2: the quirk off. -/
theorem test_addI_quirk_off :
    after ((start 0xF21E [(2, 3), (0xF, 7)]).setI 0xFFE) (fun t => (t.i, t.v 0xF)) = some (0x001, 7) := by decide

/-- IX5, IX6. -/
theorem test_ldF :
    after (start 0xF229 [(2, 0x2B)]) (fun t => t.i) = some 0x087 ∧
    after (startWith { Config.default with fontBase := 0x000 } quiet 0xF229 [(2, 0x0F)]) (fun t => t.i)
      = some 0x04B := by decide

/-- S5. -/
theorem test_ldB :
    after ((start 0xF333 [(3, 0xFF)]).setI 0x300)
      (fun t => (t.memRead 0x300, t.memRead 0x301, t.memRead 0x302, t.i)) = some (2, 5, 5, 0x300) := by decide

/-- IX8: the store wraps. -/
theorem test_ldB_wraps :
    after ((start 0xF233 [(2, 0x89)]).setI 0xFFE)
      (fun t => (t.memRead 0xFFE, t.memRead 0xFFF, t.memRead 0x000)) = some (1, 3, 7) := by decide

/-- The example of R204, and IX14: the font is writable. -/
theorem test_storeRegs :
    after ((start 0xF255 [(0, 1), (1, 2), (2, 3)]).setI 0x400)
      (fun t => (t.memRead 0x400, t.memRead 0x401, t.memRead 0x402, t.i)) = some (1, 2, 3, 0x403) ∧
    after ((start 0xF055 []).setI 0x050) (fun t => (t.memRead 0x050, t.memRead 0x051)) = some (0x00, 0x90) := by decide

/-- IX10: wraps, with VF stored too. -/
theorem test_storeRegs_wraps :
    after ((withV (start 0xFF55 []) ((List.finRange 16).map fun k => (k, BitVec.ofNat 8 (k.val + 1)))).setI 0xFF8)
      (fun t => (t.memRead 0xFF8, t.memRead 0xFFF, t.memRead 0x000, t.memRead 0x007, t.i))
      = some (0x01, 0x08, 0x09, 0x10, 0x008) := by decide

/-- IX11, IX12. -/
theorem test_loadRegs :
    after (((start 0xF265 []).setI 0x500).memWriteList 0x500 [0xAA, 0xBB, 0xCC])
      (fun t => (t.v 0, t.v 1, t.v 2, t.v 3, t.i)) = some (0xAA, 0xBB, 0xCC, 0, 0x503) ∧
    after (((startWith bulkOffCfg quiet 0xF265 []).setI 0x500).memWriteList 0x500 [0xAA, 0xBB, 0xCC])
      (fun t => (t.v 0, t.v 2, t.i)) = some (0xAA, 0xCC, 0x500) := by decide

/-- IX13: x = 15 loads VF. -/
theorem test_loadRegs_VF :
    after (((start 0xFF65 []).setI 0x600).memWrite 0x60F 0x99) (fun t => (t.v 0xE, t.v 0xF, t.i))
      = some (0, 0x99, 0x610) := by decide

/-! ### Faults, reset and construction -/

/-- FT6: with a fault recorded there is no step. -/
theorem test_halted : after ((start 0x1200 []).setFault (some ⟨.stackUnderflow, 0x234⟩)) (fun t => t.pc) = none := by
  decide

/-- The machine of the default configuration and the empty image is the reset state (R260). -/
theorem test_construct_default : construct Config.default [] = .ok State.reset := rfl

/-- The font and the image of S8 after construction. -/
theorem test_construct_memory :
    (construct Config.default [0x00, 0xE0, 0x12, 0x00]).toOption.map
      (fun s => (s.memRead 0x050, s.memRead 0x09F, s.memRead 0x200, s.memRead 0x201, s.memRead 0x202, s.fetch))
      = some (0xF0, 0x80, 0x00, 0xE0, 0x12, 0x00E0) := by decide

/-- R9 and R11: configurations that are turned away. -/
theorem test_construct_refuses :
    construct { Config.default with fontBase := 0x1B1 } [] = .error .fontOverlapsProgram ∧
    construct { Config.default with stackLimit := some 0 } [] = .error .stackLimitNotPositive := ⟨rfl, rfl⟩

/-- R262: an image of 0xE01 bytes is turned away. -/
theorem test_construct_refuses_long_rom (rom : List Byte) (h : rom.length = 0xE01) :
    construct Config.default rom = .error .romTooLong := by
  have h1 : Config.default.fontBase.toNat + 80 ≤ 0x200 := by decide
  have h2 : ¬ Config.default.stackLimit = some 0 := by decide
  simp [construct, h1, h2, h]

/-- The memory operations on the canonical form: writing the reset content back unlists the byte. -/
theorem test_memory_canonical :
    ((State.reset.memWrite 0x050 0x11).memWrite 0x050 0xF0).mem = [] ∧
    ((State.reset.memWrite 0x300 0x22).memWrite 0x201 0x11).mem = [(0x201, 0x11), (0x300, 0x22)] := by decide

/-! ### Witnesses: for each statement with hypotheses, states and operands that meet them -/

theorem witness_DecodeOfEncode :
    Instr.wellFormed .kkOnly (.cls 5) = true ∧ Instr.wellFormed .fullWord (.ret 0) = true ∧
    Instr.wellFormed .fullWord (.sys 0x1E0) = true ∧ Instr.wellFormed .kkOnly (.drw 1 2 0) = true := by decide

theorem witness_EncodeOfDecode :
    decodeWord .kkOnly 0x03EE = .ok (.ret 3) ∧ decodeWord .fullWord 0x03EE = .ok (.sys 0x3EE) := by decide

theorem witness_DispatchFollowsTheOpcodeMap : nibble 0x1ABC 12 ≠ 0 ∧ nibble 0xF50A 12 ≠ 0 := by decide

theorem witness_UnhandledWords :
    (∃ e, decodeWord .kkOnly 0xF0FF = .error e) ∧ ∃ e, decodeWord .fullWord 0x8128 = .error e :=
  ⟨⟨_, rfl⟩, ⟨_, rfl⟩⟩

/-- Both endings of the cycle: a handler that does not fault and one that does. -/
theorem witness_StepRuns :
    ((start 0x6A2F []).fault = none ∧ decodeWord .kkOnly (start 0x6A2F []).fetch = .ok (.ldImm 0xA 0x2F) ∧
      after (start 0x6A2F []) State.fault = some none) ∧
    (underflowing.fault = none ∧ decodeWord .kkOnly underflowing.fetch = .ok (.ret 0) ∧
      after underflowing State.fault = some (some ⟨.stackUnderflow, 0x234⟩)) := by decide

theorem witness_Placed :
    (idle quiet).fault = none ∧ Instr.wellFormed (idle quiet).cfg.op0Decode (.ret 7) = true := by decide

theorem witness_FetchWraps : (startAt 0xFFF 0x5120 []).pc = 0xFFF ∧ (startAt 0xFFF 0x5120 []).fetch = 0x5120 := by decide

theorem witness_EveryCycleCompletes : (start 0x0000 []).fault = none := by decide

theorem witness_Halted :
    step ((start 0x1200 []).setFault (some ⟨.stackOverflow, 0x234⟩)) = .fault (.halted ⟨.stackOverflow, 0x234⟩) := rfl

theorem witness_UnhandledWord :
    (start 0x812F []).fault = none ∧
    ∃ e, decodeWord (start 0x812F []).cfg.op0Decode (start 0x812F []).fetch = .error e :=
  ⟨rfl, _, (by decide : _ = Except.error (DecodeError.unhandled8 0xF))⟩

theorem witness_KeyInputs :
    (∃ t, exec (.skp 3) (start 0xE39E []) = .next t) ∧
    ∃ t, step ((start 0xE39E []).setInputs [⟨0x8001, some 3, 0, 0⟩]) = .next t ∧ t.keypad = 0x8001 :=
  ⟨⟨_, rfl⟩, next_of_after (by decide)⟩

theorem witness_DisplayChanged :
    (∃ t, step (start 0x00E0 []) = .next t ∧ t.displayChanged = true) ∧
    (∃ t, step (start 0xD010 []) = .next t ∧ t.displayChanged = true) ∧
    ∃ t, step (start 0x6A2F []) = .next t ∧ t.displayChanged = false :=
  ⟨next_of_after (by decide), next_of_after (by decide), next_of_after (by decide)⟩

/-- A self-jump at 0x200 (CF19) and one across the top of memory. -/
theorem witness_SelfJump :
    ((start 0x1200 []).fault = none ∧ (start 0x1200 []).fetch.toNat = 0x1000 + (start 0x1200 []).pc.toNat) ∧
    (startAt 0xFFF 0x1FFF []).fault = none ∧
      (startAt 0xFFF 0x1FFF []).fetch.toNat = 0x1000 + (startAt 0xFFF 0x1FFF []).pc.toNat := by decide

theorem witness_NoHandlerButRnd :
    (∀ x kk, Instr.ldK 5 ≠ .rnd x kk) ∧ ∃ t, exec (.ldK 5) (start 0xF50A []) = .next t :=
  ⟨by simp, _, rfl⟩

/-- The last row of S7 and its boundary: an accumulator of 999. -/
theorem witness_Timers : ((start 0x0000 []).setAcc 999).acc < 1000 := by decide

theorem witness_TickRuns :
    ((start 0xF615 []).fault = none ∧ decodeWord .kkOnly (start 0xF615 []).fetch = .ok (.ldDt 6)) ∧
    ((start 0xF618 []).fault = none ∧ decodeWord .kkOnly (start 0xF618 []).fetch = .ok (.ldSt 6)) ∧
    ((start 0xF607 []).fault = none ∧ decodeWord .kkOnly (start 0xF607 []).fetch = .ok (.ldFromDt 6)) ∧
    (∃ t, step (start 0x0000 []) = .next t ∧ t.fault = none) ∧
    ∃ t, step underflowing = .next t ∧ t.fault = some ⟨.stackUnderflow, 0x234⟩ :=
  ⟨by decide, by decide, by decide, next_of_after (by decide), next_of_after (by decide)⟩

theorem witness_TimerWriters :
    (∃ t, exec (.ldDt 6) (start 0xF615 [(6, 9)]) = .next t ∧ t.dt = 9) ∧
    ∃ t, exec (.ldSt 6) (start 0xF618 [(6, 9)]) = .next t ∧ t.st = 9 :=
  ⟨next_of_afterExec (by decide), next_of_afterExec (by decide)⟩

theorem witness_Frame :
    (∃ t, exec (.sub 1 2) (start 0x8125 [(1, 5), (2, 3)]) = .next t ∧ t.v 1 = 2) ∧
    ∃ t, exec (.storeRegs 0) (start 0xF055 [(0, 9)]) = .next t ∧ t.memRead 0x000 = 9 :=
  ⟨next_of_afterExec (by decide), next_of_afterExec (by decide)⟩

theorem witness_StackUnderflow :
    underflowing.fault = none ∧ underflowing.stack = [] ∧
    ∃ t, exec (.ret 0) underflowing = .next t ∧ t.fault = some ⟨.stackUnderflow, 0x232⟩ :=
  ⟨rfl, rfl, next_of_afterExec (by decide)⟩

/-- The start of CF8: CALL at 0x300 with two entries and STACK_LIMIT = 2. -/
def overflowing : State := ({ startAt 0x300 0x2300 [] with cfg := limitTwoCfg } : State).setStack [0x302, 0x202]

theorem witness_StackOverflow :
    overflowing.fault = none ∧ overflowing.cfg.stackLimit = some overflowing.stack.length ∧
    ∃ t, exec (.call 0x300) overflowing = .next t ∧ t.fault = some ⟨.stackOverflow, 0x2FE⟩ :=
  ⟨rfl, rfl, next_of_afterExec (by decide)⟩

theorem witness_FaultingCycle :
    (∃ t, step underflowing = .next t ∧ t.fault = some ⟨.stackUnderflow, 0x234⟩) ∧
    ∃ t, step overflowing = .next t ∧ t.fault = some ⟨.stackOverflow, 0x300⟩ :=
  ⟨next_of_after (by decide), next_of_after (by decide)⟩

theorem witness_ConfigurationKept : ∃ t, step overflowing = .next t ∧ t.cfg.stackLimit = some 2 :=
  next_of_after (by decide)

theorem reset_inv : State.reset.Inv where
  cfgValid := by decide
  memWf := rfl
  accBelow := by decide
  stackDepth := by simp [State.reset]
  faultCause := by simp [State.reset]
  oneEvent := by simp [State.reset]

/-- The boundary of the invariant: a stack at its limit, an accumulator of 999, a byte listed. -/
theorem witness_Invariant :
    State.Inv ((overflowing.setAcc 999).setDt 1) ∧ ∃ t, step ((overflowing.setAcc 999).setDt 1) = .next t ∧
      t.fault = some ⟨.stackOverflow, 0x300⟩ := by
  refine ⟨⟨by decide, by decide, by decide, fun l h => ?_, fun r h => ?_, by decide⟩, next_of_after (by decide)⟩
  · cases h; decide
  · cases h

theorem witness_construct :
    ∃ s, construct limitTwoCfg [0x00, 0xE0] = .ok s ∧ (s.memRead 0x201, s.pc) = (0xE0, 0x200) :=
  ⟨_, rfl, by decide⟩

/-- The clauses of the address map: first and last font byte, first and last image byte, a byte beside each. -/
theorem witness_ConstructionLaysOut :
    (0x050#12).toNat = Config.default.fontBase.toNat + 0 ∧ (0x09F#12).toNat = Config.default.fontBase.toNat + 79 ∧
    ([0x00, 0xE0] : List Byte)[0]? = some 0x00 ∧ (0x200#12).toNat = 0x200 + 0 ∧
    ([0x00, 0xE0] : List Byte)[1]? = some 0xE0 ∧ (0x201#12).toNat = 0x200 + 1 ∧
    ∀ a ∈ ([0x04F, 0x0A0, 0x1FF, 0x202, 0xFFF] : List Addr),
      ¬ (Config.default.fontBase.toNat ≤ a.toNat ∧ a.toNat < Config.default.fontBase.toNat + 80) ∧
      ¬ (0x200 ≤ a.toNat ∧ a.toNat < 0x200 + ([0x00, 0xE0] : List Byte).length) := by decide

/-- The boundary of what is built: FONT_BASE = 0x1B0 and an image of 0xE00 bytes. -/
theorem witness_ConstructionBoundary (rom : List Byte) (h : rom.length = 0xE00) :
    ∃ s, construct { Config.default with fontBase := 0x1B0 } rom = .ok s := by
  have h1 : ({ Config.default with fontBase := 0x1B0 } : Config).fontBase.toNat + 80 ≤ 0x200 := by decide
  have h2 : ¬ ({ Config.default with fontBase := 0x1B0 } : Config).stackLimit = some 0 := by decide
  simp [construct, h2, h]

theorem witness_Ret :
    ((start 0x00EE []).setStack [0x252]).stack = 0x252 :: [] ∧ (start 0x00EE []).stack = [] := by decide

theorem witness_Call :
    (start 0x2300 []).cfg.stackLimit ≠ some (start 0x2300 []).stack.length ∧
    (overflowing.setStack [0x202]).cfg.stackLimit ≠ some (overflowing.setStack [0x202]).stack.length ∧
    overflowing.cfg.stackLimit = some overflowing.stack.length := by decide

theorem witness_RetReturns :
    (start 0x2400 []).fault = none ∧ ∃ t, exec (.call 0x400) (start 0x2400 []) = .next t ∧ t.fault = none ∧
      (State.reset.setStack t.stack).stack = t.stack :=
  ⟨rfl, _, rfl, rfl, rfl⟩

theorem witness_RegisterMove :
    (start 0x8120 []).cfg.vfNonarith = .clearAll ∧ (1 : RegIdx) ≠ 15 ∧
    (startWith clearLogicCfg quiet 0x8120 []).cfg.vfNonarith ≠ .clearAll := by decide

theorem witness_BitwiseLogic :
    ((Instr.orReg 1 2 = .orReg 1 2 ∧ or = or) ∧ (Instr.andReg 1 2 = .andReg 1 2 ∧ and = and) ∧
      (Instr.xorReg 1 15 = .xorReg 1 15 ∧ xor = xor)) ∧
    (startWith clearLogicCfg quiet 0x8121 []).cfg.vfNonarith ≠ .preserve ∧
    (startWith preserveCfg quiet 0x8121 []).cfg.vfNonarith = .preserve := by simp [startWith, withV, preserveCfg,
      clearLogicCfg, State.placeWord, wordBytes, State.memWriteList, State.memWrite]

theorem witness_AddAndSubtract : (14 : RegIdx) ≠ 15 ∧ ¬ (15 : RegIdx) ≠ 15 := by decide

theorem witness_Shifts :
    (0x80 : Byte) = (if (start 0x812E [(2, 0x80)]).cfg.shiftUsesSecondaryRegister = true
      then (start 0x812E [(2, 0x80)]).v 2 else (start 0x812E [(2, 0x80)]).v 1) ∧
    (0x01 : Byte) = (if (startWith shiftOffCfg quiet 0x812E [(1, 1)]).cfg.shiftUsesSecondaryRegister = true
      then (startWith shiftOffCfg quiet 0x812E [(1, 1)]).v 2
      else (startWith shiftOffCfg quiet 0x812E [(1, 1)]).v 1) := by decide

/-- The state of DP3: one covered pixel is on. -/
def colliding : State := withPixels (((start 0xD011 []).setI 0x300).memWrite 0x300 0x81) [(0, 0)]

/-- A covered pixel that is on (DP3), and a sprite that covers none. -/
theorem witness_Draw :
    (∃ c r, SpriteCovers colliding 0 1 1 c r ∧ colliding.disp.pixel c r = true) ∧
    ¬ ∃ c r, SpriteCovers colliding 0 1 0 c r ∧ colliding.disp.pixel c r = true :=
  ⟨⟨0, 0, ⟨0, by decide, 0, by decide, by decide, by decide, by decide⟩, by decide⟩,
   fun ⟨_, _, ⟨_, h, _⟩, _⟩ => absurd h (Nat.not_lt_zero _)⟩

/-- The second draw of S4 may start from any state with the display of the first. -/
theorem witness_DrawTwice :
    ∃ t, exec (.drw 0 1 1) (((start 0xD011 [(0, 63)]).setI 0x300).memWrite 0x300 0xFF) = .next t ∧
      t.disp.pixel 63 0 = true :=
  next_of_afterExec (f := fun t => t.disp.pixel 63 0) (by decide)

theorem witness_DrawTwice_state (s t : State) :
    (s.setDisp t.disp).disp = t.disp ∧ (s.setDisp t.disp).v 0 = s.v 0 ∧ (s.setDisp t.disp).v 1 = s.v 1 ∧
    (s.setDisp t.disp).i = s.i ∧ ∀ a, (s.setDisp t.disp).memRead a = s.memRead a :=
  ⟨rfl, rfl, rfl, rfl, fun _ => rfl⟩

/-- The buffer of S4 before its first draw is clear. -/
theorem witness_DrawTwice_clear :
    (((start 0xD011 [(0, 63)]).setI 0x300).memWrite 0x300 0xFF).disp = Display.clear := rfl

/-- Key 0xF, the highest, down and not down. -/
theorem witness_KeySkips :
    true = ({ start 0xE39E [(3, 0x1F)] with keypad := 0x8000 } : State).keypad.getLsbD
      (((start 0xE39E [(3, 0x1F)]).v 3).toNat % 16) ∧
    false = (start 0xE39E [(3, 0x1F)]).keypad.getLsbD (((start 0xE39E [(3, 0x1F)]).v 3).toNat % 16) := by decide

theorem witness_WaitForKey :
    ({ start 0xF50A [] with lastKey := some 0xF } : State).lastKey = some 0xF ∧
    (start 0xF50A []).lastKey = none := by decide

theorem witness_WaitingCycle :
    (start 0xF50A []).fault = none ∧ decodeWord .kkOnly (start 0xF50A []).fetch = .ok (.ldK 5) ∧
    (start 0xF50A []).input.edge = none := by decide

theorem witness_IndexAdd :
    (startWith addIndexOnCfg quiet 0xF21E []).cfg.addIndexSetsOverflowFlag = true ∧
    (start 0xF21E []).cfg.addIndexSetsOverflowFlag = false := by decide

/-- IX15: the two registers stored where pc points are the next word. -/
theorem witness_StoreIsSeen :
    ∃ t, exec (.storeRegs 1) (((start 0xF155 [(0, 0x12)]).setPc 0x202).setI 0x202) = .next t ∧
      (t.fetch, t.i) = (0x1200, 0x204) :=
  next_of_afterExec (f := fun t => (t.fetch, t.i)) (by decide)

theorem witness_StoreIsSeen_operands :
    (1 : RegIdx).val = (0 : RegIdx).val + 1 ∧ (1 : RegIdx) ≤ 1 ∧
    (((start 0xF155 [(0, 0x12)]).setPc 0x202).setI 0x202).pc =
      (((start 0xF155 [(0, 0x12)]).setPc 0x202).setI 0x202).i + BitVec.ofNat 12 (0 : RegIdx).val := by decide

end Sys2Proof.Tests
end

/-! The address map at construction (20_memory.md R56, 70_reset_and_hazards.md R260). -/

namespace Sys2Proof

theorem Config.resetByte_font (c : Config) {a k : Nat} (hk : k < 80) (ha : a = c.fontBase.toNat + k) :
    c.resetByte a = c.fontByte ⟨k, hk⟩ := by
  subst ha
  simp [Config.resetByte, hk]

theorem Config.resetByte_outside_font (c : Config) {a : Nat}
    (ha : ¬ (c.fontBase.toNat ≤ a ∧ a < c.fontBase.toNat + 80)) : c.resetByte a = 0x00 :=
  dif_neg ha

namespace Machine

/-- What `construct` can answer `.ok` with: all three checks passed, and the image written over the reset state. -/
theorem construct_eq_ok_iff {cfg : Config} {rom : List Byte} {s : State} :
    construct cfg rom = .ok s ↔
      cfg.fontBase.toNat + 80 ≤ 0x200 ∧ cfg.stackLimit ≠ some 0 ∧ rom.length ≤ 0xE00 ∧
        s = State.memWriteList { State.reset with cfg := cfg } 0x200 rom := by
  unfold construct
  split
  · simp_all
  · split
    · simp_all
    · split <;> simp_all [eq_comm]

theorem pc_of_construct {cfg : Config} {rom : List Byte} {s : State} (h : construct cfg rom = .ok s) :
    s.pc = 0x200 := by
  obtain ⟨-, -, -, rfl⟩ := construct_eq_ok_iff.mp h
  rw [State.memWriteList_eq]
  rfl

/-- An address below 0x200 is at least 0xE00 bytes past 0x200 modulo 4096, beyond every image that fits. -/
theorem rom_getElem?_sub_entry {rom : List Byte} (hlen : rom.length ≤ 0xE00) (a : Addr) :
    rom[(a - 0x200).toNat]? = if 0x200 ≤ a.toNat then rom[a.toNat - 0x200]? else none := by
  split
  · next ha =>
    have : (a - 0x200).toNat = a.toNat - 0x200 := by bv_omega
    rw [this]
  · next ha =>
    have : 0xE00 ≤ (a - 0x200).toNat := by bv_omega
    exact List.getElem?_eq_none (by omega)

/-- The whole memory of a constructed machine: the image's byte from 0x200 on, the reset byte elsewhere. -/
theorem memRead_of_construct {cfg : Config} {rom : List Byte} {s : State} (h : construct cfg rom = .ok s)
    (a : Addr) :
    s.memRead a =
      (if 0x200 ≤ a.toNat then rom[a.toNat - 0x200]? else none).getD (cfg.resetByte a.toNat) := by
  obtain ⟨-, -, hlen, rfl⟩ := construct_eq_ok_iff.mp h
  rw [State.memRead_memWriteList _ _ _ _ (by omega), rom_getElem?_sub_entry hlen]
  rfl

theorem memRead_image_of_construct {cfg : Config} {rom : List Byte} {s : State}
    (h : construct cfg rom = .ok s) {a : Addr} {k : Nat} {b : Byte} (hb : rom[k]? = some b)
    (ha : a.toNat = 0x200 + k) : s.memRead a = b := by
  simp [memRead_of_construct h, ha, hb]

theorem memRead_outside_image_of_construct {cfg : Config} {rom : List Byte} {s : State}
    (h : construct cfg rom = .ok s) {a : Addr}
    (ha : ¬ (0x200 ≤ a.toNat ∧ a.toNat < 0x200 + rom.length)) : s.memRead a = cfg.resetByte a.toNat := by
  rw [memRead_of_construct h]
  split
  · rw [List.getElem?_eq_none (by omega)]
    rfl
  · rfl

/-- Settles O29: the font lies below 0x200, where no image byte is written, so an address reads as the image's byte
inside the image and as the reset byte outside it. -/
theorem constructionLaysOutTheAddressMap : Obligations.ConstructionLaysOutTheAddressMap := by
  refine ⟨rfl, fun cfg rom s h => ⟨pc_of_construct h, fun a => ⟨fun k hk ha => ?font, fun k b hb ha => ?image,
    fun hfont himage => ?zero⟩⟩⟩
  case font =>
    obtain ⟨hbase, -⟩ := construct_eq_ok_iff.mp h
    have himage : ¬ (0x200 ≤ a.toNat ∧ a.toNat < 0x200 + rom.length) := by omega
    rw [memRead_outside_image_of_construct h himage, cfg.resetByte_font hk ha]
    rfl
  case image => exact memRead_image_of_construct h hb ha
  case zero => rw [memRead_outside_image_of_construct h himage, cfg.resetByte_outside_font hfont]

end Machine
end Sys2Proof

/-! The fields of a word (30_encoding.md R71). -/

namespace Sys2Proof

/-- The op field and the op nibble of the three word layouts are the same four bits. -/
theorem val_decodeFields_op (w : Word) : (decodeFields w).op.val = (w.extractLsb' 12 4).toNat := rfl

theorem toNat_eq_op_x_y_n (w : Word) :
    w.toNat = (decodeFields w).op.val * 4096 + (decodeFields w).x.val * 256 + (decodeFields w).y.val * 16 +
      (decodeFields w).n.toNat := by
  rw [val_decodeFields_op, ← toNat_wordXyn, wordXyn_fields]

theorem toNat_eq_op_x_kk (w : Word) :
    w.toNat = (decodeFields w).op.val * 4096 + (decodeFields w).x.val * 256 + (decodeFields w).kk.toNat := by
  rw [val_decodeFields_op, ← toNat_wordXkk, wordXkk_fields]

theorem toNat_eq_op_nnn (w : Word) :
    w.toNat = (decodeFields w).op.val * 4096 + (decodeFields w).nnn.toNat := by
  rw [val_decodeFields_op, ← toNat_wordNnn, wordNnn_fields]

/-- Settles O5: the layouts op, x, y, n and op, x, kk and op, nnn all spell the same word, so the parts in which
two of them differ are equal. -/
theorem fieldsAreTheNibblesOfTheWord : Obligations.FieldsAreTheNibblesOfTheWord := by
  intro w
  have hxyn := toNat_eq_op_x_y_n w
  have hxkk := toNat_eq_op_x_kk w
  have hnnn := toNat_eq_op_nnn w
  refine ⟨hxyn, ?kk, ?nnn⟩
  case kk => omega
  case nnn => omega

end Sys2Proof

/-! The jumps and the compare-and-skip instructions (40_control_flow.md R103, R104, R107 to R110). -/

namespace Sys2Proof.Machine

theorem exec_jp (nnn : Addr) (s : State) : exec (.jp nnn) s = .next (s.setPc nnn) := rfl

theorem exec_jpV0 (nnn : Addr) (s : State) : exec (.jpV0 nnn) s = .next (s.setPc (s.jumpV0Target nnn)) := rfl

theorem exec_seImm (x : RegIdx) (kk : Byte) (s : State) :
    exec (.seImm x kk) s = .next (s.skipIf (s.v x == kk)) := rfl

theorem exec_sneImm (x : RegIdx) (kk : Byte) (s : State) :
    exec (.sneImm x kk) s = .next (s.skipIf (s.v x != kk)) := rfl

theorem exec_seReg (x y : RegIdx) (s : State) : exec (.seReg x y) s = .next (s.skipIf (s.v x == s.v y)) := rfl

theorem exec_sneReg (x y : RegIdx) (s : State) : exec (.sneReg x y) s = .next (s.skipIf (s.v x != s.v y)) := rfl

/-- V0 is zero-extended to an address, so only the sum can wrap. -/
theorem State.toNat_jumpV0Target (s : State) (nnn : Addr) :
    (s.jumpV0Target nnn).toNat = (nnn.toNat + (s.v 0).toNat) % 4096 := by
  have hv0 : (zextAddr (s.v 0)).toNat = (s.v 0).toNat := BitVec.toNat_setWidth_of_le (by decide)
  rw [State.jumpV0Target, BitVec.toNat_add, hv0]

theorem State.pc_skipIf (s : State) (c : Bool) : (s.skipIf c).pc = if c then s.pc + 2 else s.pc := by
  cases c <;> rfl

/-- Every instruction whose meaning is a skip advances pc exactly when what its test decides holds, and writes
nothing else. -/
theorem exists_next_of_exec_eq_skipIf {i : Instr} {s : State} {c : Bool} {P : Prop} [Decidable P]
    (hexec : exec i s = .next (s.skipIf c)) (hc : c = true ↔ P) :
    ∃ t, exec i s = .next t ∧ t.pc = (if P then s.pc + 2 else s.pc) ∧ Frame [] [.pc] s t :=
  ⟨s.skipIf c, hexec, by simp only [State.pc_skipIf, hc], frame_skipIf s c⟩

/-- Settles O34: both jumps are a write of pc, and the target of JP V0 is the wrapped sum. -/
theorem jumpsSetThePc : Obligations.JumpsSetThePc := fun nnn s =>
  ⟨⟨s.setPc nnn, exec_jp nnn s, rfl, frame_setPc s nnn⟩,
    ⟨s.setPc (s.jumpV0Target nnn), exec_jpV0 nnn s, s.toNat_jumpV0Target nnn, frame_setPc s _⟩⟩

/-- Settles O37: each of the four is a skip, on equality or on inequality. -/
theorem compareAndSkip : Obligations.CompareAndSkip := fun x y kk s =>
  ⟨exists_next_of_exec_eq_skipIf (exec_seImm x kk s) beq_iff_eq,
    exists_next_of_exec_eq_skipIf (exec_sneImm x kk s) bne_iff_ne,
    exists_next_of_exec_eq_skipIf (exec_seReg x y s) beq_iff_eq,
    exists_next_of_exec_eq_skipIf (exec_sneReg x y s) bne_iff_ne⟩

end Sys2Proof.Machine

/-! The loads, arithmetic, logic and shifts (41_load_alu.md R130 to R140, R142). -/

namespace Sys2Proof.Machine

/-! What the instructions run -/

theorem exec_ldImm (x : RegIdx) (kk : Byte) (s : State) : exec (.ldImm x kk) s = .next (s.setV x kk) := rfl

theorem exec_addImm (x : RegIdx) (kk : Byte) (s : State) :
    exec (.addImm x kk) s = .next (s.setV x (s.v x + kk)) := rfl

theorem exec_ldReg (x y : RegIdx) (s : State) :
    exec (.ldReg x y) s = .next (s.setV x (s.v y)).clearFlagMove := rfl

theorem exec_orReg (x y : RegIdx) (s : State) :
    exec (.orReg x y) s = .next (s.setV x (s.v x ||| s.v y)).clearFlagLogic := rfl

theorem exec_andReg (x y : RegIdx) (s : State) :
    exec (.andReg x y) s = .next (s.setV x (s.v x &&& s.v y)).clearFlagLogic := rfl

theorem exec_xorReg (x y : RegIdx) (s : State) :
    exec (.xorReg x y) s = .next (s.setV x (s.v x ^^^ s.v y)).clearFlagLogic := rfl

theorem exec_addReg (x y : RegIdx) (s : State) :
    exec (.addReg x y) s = .next (s.setResultFlag x (s.v x + s.v y) (carryFlag (s.v x) (s.v y))) := rfl

theorem exec_sub (x y : RegIdx) (s : State) :
    exec (.sub x y) s = .next (s.setResultFlag x (s.v x - s.v y) (notBorrowFlag (s.v x) (s.v y))) := rfl

theorem exec_shr (x y : RegIdx) (s : State) : exec (.shr x y) s =
    .next (s.setResultFlag x (s.shiftSource x y >>> 1) (shrFlag (s.shiftSource x y))) := rfl

theorem exec_shl (x y : RegIdx) (s : State) : exec (.shl x y) s =
    .next (s.setResultFlag x (s.shiftSource x y <<< 1) (shlFlag (s.shiftSource x y))) := rfl

/-! The register writes -/

theorem State.v_setV_self (s : State) (x : RegIdx) (b : Byte) : (s.setV x b).v x = b := by
  rw [State.v_setV, if_pos rfl]

/-- The flag is written last, so it stands even when x = 15 (R133). -/
theorem State.v_setResultFlag_flag (s : State) (x : RegIdx) (r f : Byte) : (s.setResultFlag x r f).v 15 = f :=
  State.v_setV_self _ 15 f

theorem State.v_setResultFlag_result (s : State) {x : RegIdx} (hx : x ≠ 15) (r f : Byte) :
    (s.setResultFlag x r f).v x = r := by
  rw [State.setResultFlag, State.setFlag, State.v_setV, if_neg hx, State.v_setV_self]

/-- First column of R132's table: a move writes a flag under `clear_all` only. -/
theorem State.clearFlagMove_setV (s : State) (x : RegIdx) (b : Byte) : (s.setV x b).clearFlagMove =
    if s.cfg.vfNonarith = .clearAll then s.setResultFlag x b 0 else s.setV x b := by
  rw [State.clearFlagMove, State.setV_cfg]
  cases s.cfg.vfNonarith <;> rfl

/-- Second column of R132's table: logic writes a flag unless the parameter is `preserve`. -/
theorem State.clearFlagLogic_setV (s : State) (x : RegIdx) (b : Byte) : (s.setV x b).clearFlagLogic =
    if s.cfg.vfNonarith = .preserve then s.setV x b else s.setResultFlag x b 0 := by
  rw [State.clearFlagLogic, State.setV_cfg]
  cases s.cfg.vfNonarith <;> rfl

/-! The results and flags as numbers -/

theorem toNat_b2v (c : Bool) : (b2v c).toNat = c.toNat := by cases c <;> rfl

theorem b2v_decide (P : Prop) [Decidable P] : b2v (decide P) = if P then 1 else 0 := by
  simp only [b2v, decide_eq_true_eq]

/-- The difference wraps modulo 256. -/
theorem intCast_toNat_sub (p q : Byte) : ((p - q).toNat : Int) = (p.toNat - q.toNat : Int) % 256 := by
  have := q.isLt
  rw [BitVec.toNat_sub]
  omega

theorem toNat_shrFlag (b : Byte) : (shrFlag b).toNat = b.toNat % 2 := by
  rw [shrFlag, toNat_b2v, BitVec.getLsbD, Nat.toNat_testBit, pow_zero, Nat.div_one]

/-- Bit 7 is the whole quotient by 128, because a byte is below 256. -/
theorem toNat_shlFlag (b : Byte) : (shlFlag b).toNat = b.toNat / 128 := by
  have := b.isLt
  rw [shlFlag, toNat_b2v, BitVec.getLsbD, Nat.toNat_testBit]
  omega

/-! The obligations -/

/-- Settles O38: each is one register write, and the sum of two bytes wraps. -/
theorem immediateLoadAndAdd : Obligations.ImmediateLoadAndAdd := by
  intro x kk s
  refine ⟨⟨s.setV x kk, exec_ldImm x kk s, s.v_setV_self x kk, frame_setV s x kk⟩,
    ⟨s.setV x (s.v x + kk), exec_addImm x kk s, ?sum, frame_setV s x _⟩⟩
  case sum => rw [State.v_setV_self, BitVec.toNat_add]

/-- Settles O39: under `clear_all` the move is a result with flag 0, otherwise a plain register write. -/
theorem registerMove : Obligations.RegisterMove := by
  intro x y s
  refine ⟨_, exec_ldReg x y s, fun hclear => ?clear, fun hkeep => ?keep⟩
  case clear =>
    rw [State.clearFlagMove_setV, if_pos hclear]
    exact ⟨s.v_setResultFlag_flag x _ 0, fun hx => s.v_setResultFlag_result hx _ 0,
      frame_setResultFlag s x _ 0⟩
  case keep =>
    rw [State.clearFlagMove_setV, if_neg hkeep]
    exact ⟨s.v_setV_self x _, frame_setV s x _⟩

/-- Settles O40: each of the three writes a byte with the bits asked for, and then only the parameter decides
whether VF is cleared. -/
theorem bitwiseLogic : Obligations.BitwiseLogic := by
  intro x y s i f hop
  obtain ⟨b, hexec, hbits⟩ : ∃ b, exec i s = .next (s.setV x b).clearFlagLogic ∧
      ∀ k < 8, b.getLsbD k = f ((s.v x).getLsbD k) ((s.v y).getLsbD k) := by
    obtain ⟨rfl, rfl⟩ | ⟨rfl, rfl⟩ | ⟨rfl, rfl⟩ := hop
    · exact ⟨_, exec_orReg x y s, fun _ _ => BitVec.getLsbD_or⟩
    · exact ⟨_, exec_andReg x y s, fun _ _ => BitVec.getLsbD_and⟩
    · exact ⟨_, exec_xorReg x y s, fun _ _ => BitVec.getLsbD_xor⟩
  refine ⟨_, hexec, fun hclear => ?clear, fun hkeep => ?keep⟩
  case clear =>
    rw [State.clearFlagLogic_setV, if_neg hclear]
    refine ⟨s.v_setResultFlag_flag x b 0, frame_setResultFlag s x b 0, fun hx => ?_⟩
    rwa [s.v_setResultFlag_result hx]
  case keep =>
    rw [State.clearFlagLogic_setV, if_pos hkeep, State.v_setV_self]
    exact ⟨frame_setV s x b, hbits⟩

/-- Settles O41: both write the result and then the flag, so for x = 15 the flag stands. -/
theorem addAndSubtractWithFlag : Obligations.AddAndSubtractWithFlag := by
  intro x y s
  refine ⟨⟨_, exec_addReg x y s, fun hx => ?sum, ?carry, frame_setResultFlag s x _ _⟩,
    ⟨_, exec_sub x y s, fun hx => ?difference, ?notBorrow, frame_setResultFlag s x _ _⟩⟩
  case sum => rw [s.v_setResultFlag_result hx, BitVec.toNat_add]
  case carry => exact (s.v_setResultFlag_flag x _ _).trans (b2v_decide _)
  case difference => rw [s.v_setResultFlag_result hx, intCast_toNat_sub]
  case notBorrow => exact (s.v_setResultFlag_flag x _ _).trans (b2v_decide _)

/-- Settles O43: `src` is the model's shift source, halved or doubled, and the flag is its bit 0 or bit 7. -/
theorem shiftsAndTheirSource : Obligations.ShiftsAndTheirSource := by
  intro x y s src hsrc
  obtain rfl : src = s.shiftSource x y := hsrc
  refine ⟨⟨_, exec_shr x y s, fun hx => ?half, ?bit0, frame_setResultFlag s x _ _⟩,
    ⟨_, exec_shl x y s, fun hx => ?double, ?bit7, frame_setResultFlag s x _ _⟩⟩
  case half =>
    rw [s.v_setResultFlag_result hx, BitVec.toNat_ushiftRight, Nat.shiftRight_eq_div_pow, pow_one]
  case bit0 => rw [s.v_setResultFlag_flag, toNat_shrFlag]
  case double => rw [s.v_setResultFlag_result hx, BitVec.toNat_shiftLeft, Nat.shiftLeft_eq, pow_one]
  case bit7 => rw [s.v_setResultFlag_flag, toNat_shlFlag]

end Sys2Proof.Machine

/-! The display instructions (42_display.md R160, R166). -/

namespace Sys2Proof.Machine

theorem exec_cls (x : RegIdx) (s : State) : exec (.cls x) s = .next (s.setDisp Display.clear) := rfl

/-- Stage 6 sets the output for a display instruction whatever the buffer holds (R166). -/
theorem State.displayChanged_renderSignal (s : State) {i : Instr} (hi : signalsDisplay i = true) :
    (s.renderSignal i).displayChanged = true := by
  rw [State.renderSignal, if_pos hi]

/-- Settles O45: CLS is one write of the clear buffer, and CLS signals the display on every buffer. -/
theorem clsTurnsEveryPixelOff : Obligations.ClsTurnsEveryPixelOff := fun x s =>
  ⟨s.setDisp Display.clear, exec_cls x s, Display.pixel_clear, frame_setDisp s Display.clear,
    State.displayChanged_renderSignal _ rfl⟩

end Sys2Proof.Machine

/-! The key and timer instructions (43_keys_timers.md R180 to R182, R184 to R186). -/

namespace Sys2Proof.Machine

theorem exec_skp (x : RegIdx) (s : State) :
    exec (.skp x) s = .next (s.skipIf (s.keyDown (lowNibble (s.v x)))) := rfl

theorem exec_sknp (x : RegIdx) (s : State) :
    exec (.sknp x) s = .next (s.skipIf (!s.keyDown (lowNibble (s.v x)))) := rfl

theorem exec_ldK_of_edge (x : RegIdx) {s : State} {k : KeyIdx} (hedge : s.lastKey = some k) :
    exec (.ldK x) s = .next (s.setV x (BitVec.ofNat 8 k.val)) := by
  simp only [exec, execLdK, hedge]

theorem exec_ldK_of_no_edge (x : RegIdx) {s : State} (hedge : s.lastKey = none) :
    exec (.ldK x) s = .next ((s.setPc (s.pc - 2)).setWaiting true) := by
  simp only [exec, execLdK, hedge]

theorem exec_ldFromDt (x : RegIdx) (s : State) : exec (.ldFromDt x) s = .next (s.setV x s.dt) := rfl

theorem exec_ldDt (x : RegIdx) (s : State) : exec (.ldDt x) s = .next (s.setDt (s.v x)) := rfl

theorem exec_ldSt (x : RegIdx) (s : State) : exec (.ldSt x) s = .next (s.setSt (s.v x)) := rfl

/-- The high nibble of the byte plays no part in which key is tested. -/
theorem State.keyDown_lowNibble (s : State) (b : Byte) :
    s.keyDown (lowNibble b) = s.keypad.getLsbD (b.toNat % 16) := rfl

/-- A key number is below 16, so it fits in a byte. -/
theorem toNat_ofNat_key (k : KeyIdx) : (BitVec.ofNat 8 k.val).toNat = k.val :=
  Nat.mod_eq_of_lt (k.isLt.trans (by decide))

theorem frame_rewindAndWait (s : State) :
    Frame [] [.pc, .waitingForKey] s ((s.setPc (s.pc - 2)).setWaiting true) :=
  (frame_setPc s _).trans (frame_setWaiting _ true)

/-- Settles O49: both are skips on the key of the low nibble, SKP when it is down and SKNP when it is not. -/
theorem keySkips : Obligations.KeySkips := by
  intro x s down hdown
  rw [← State.keyDown_lowNibble] at hdown
  subst hdown
  refine ⟨exists_next_of_exec_eq_skipIf (exec_skp x s) Iff.rfl, ?sknp⟩
  case sknp =>
    have hup : (!s.keyDown (lowNibble (s.v x))) = true ↔ ¬ s.keyDown (lowNibble (s.v x)) = true := by
      rw [Bool.not_eq_true', Bool.not_eq_true]
    simpa only [ite_not] using exists_next_of_exec_eq_skipIf (exec_sknp x s) hup

/-- Settles O50: with an edge the instruction is one register write, without one it rewinds pc and waits. -/
theorem waitForKeyStoresOrRewinds : Obligations.WaitForKeyStoresOrRewinds := by
  intro x s
  refine ⟨fun k hedge => ?stores, fun hedge => ?waits⟩
  case stores =>
    refine ⟨_, exec_ldK_of_edge x hedge, ?_, frame_setV s x _⟩
    rw [State.v_setV_self, toNat_ofNat_key]
  case waits => exact ⟨_, exec_ldK_of_no_edge x hedge, rfl, rfl, frame_rewindAndWait s⟩

/-- Settles O52: each of the three is one write of the source byte. -/
theorem timerMovesCopyTheByte : Obligations.TimerMovesCopyTheByte := fun x s =>
  ⟨⟨_, exec_ldFromDt x s, s.v_setV_self x s.dt, frame_setV s x s.dt⟩,
    ⟨_, exec_ldDt x s, s.setDt_dt (s.v x), frame_setDt s (s.v x)⟩,
    ⟨_, exec_ldSt x s, s.setSt_st (s.v x), frame_setSt s (s.v x)⟩⟩

end Sys2Proof.Machine

/-! The index register and the memory transfers (44_index_memory.md R202 to R205). -/

namespace Sys2Proof.Machine

/-! What the instructions run -/

theorem exec_ldF (x : RegIdx) (s : State) : exec (.ldF x) s = .next (s.setI (s.glyphAddr x)) := rfl

theorem exec_ldB (x : RegIdx) (s : State) :
    exec (.ldB x) s = .next (s.memWriteList s.i (bcdDigits (s.v x))) := rfl

theorem exec_storeRegs (x : RegIdx) (s : State) :
    exec (.storeRegs x) s = .next ((s.memWriteList s.i (s.regsUpTo x)).setI (s.indexAfterBulk x)) := rfl

theorem exec_loadRegs (x : RegIdx) (s : State) :
    exec (.loadRegs x) s = .next ((s.setRegs (s.loadedRegs x)).setI (s.indexAfterBulk x)) := rfl

/-! A run of bytes, by offset from its first address -/

theorem State.memRead_memWriteList_offset (s : State) (a : Addr) {bs : List Byte} (hlen : bs.length ≤ 4096)
    {k : Nat} {b : Byte} (hk : bs[k]? = some b) :
    (s.memWriteList a bs).memRead (a + BitVec.ofNat 12 k) = b := by
  obtain ⟨hlt, -⟩ := List.getElem?_eq_some_iff.mp hk
  have hoffset : (a + BitVec.ofNat 12 k - a).toNat = k := by
    rw [BitVec.add_comm, BitVec.add_sub_cancel, BitVec.toNat_ofNat, Nat.mod_eq_of_lt (by omega)]
  rw [State.memRead_memWriteList _ _ _ _ hlen, hoffset, hk, Option.getD_some]

theorem State.memRead_memWriteList_outside (s : State) (a : Addr) {bs : List Byte} (hlen : bs.length ≤ 4096)
    {q : Addr} (hq : ∀ k < bs.length, q ≠ a + BitVec.ofNat 12 k) :
    (s.memWriteList a bs).memRead q = s.memRead q := by
  have hpast : bs.length ≤ (q - a).toNat := by
    by_contra hlt
    refine hq _ (Nat.lt_of_not_le hlt) ?_
    rw [BitVec.ofNat_toNat, BitVec.setWidth_eq, BitVec.add_comm, BitVec.sub_add_cancel]
  rw [State.memRead_memWriteList _ _ _ _ hlen, List.getElem?_eq_none hpast, Option.getD_none]

/-! The operands -/

/-- A glyph number is below 16, so its offset into the font fits in an address and only the sum can wrap. -/
theorem State.toNat_glyphAddr (s : State) (x : RegIdx) :
    (s.glyphAddr x).toNat = (s.cfg.fontBase.toNat + (s.v x).toNat % 16 * 5) % 4096 := by
  have hglyph : (lowNibble (s.v x)).val = (s.v x).toNat % 16 := rfl
  rw [State.glyphAddr, hglyph, BitVec.toNat_add, BitVec.toNat_ofNat, Nat.add_mod_mod]

theorem toNat_ofNat_digit {d : Nat} (hd : d < 10) : (BitVec.ofNat 8 d).toNat = d :=
  Nat.mod_eq_of_lt (hd.trans (by decide))

theorem State.length_regsUpTo (s : State) (x : RegIdx) : (s.regsUpTo x).length = x.val + 1 := by
  rw [State.regsUpTo, List.length_take, Vector.length_toList, Nat.min_eq_left x.isLt]

theorem State.getElem?_regsUpTo (s : State) {x r : RegIdx} (hr : r ≤ x) :
    (s.regsUpTo x)[r.val]? = some (s.v r) := by
  rw [State.regsUpTo, List.getElem?_take_of_lt (Nat.lt_succ_of_le hr)]
  simp [State.v]

theorem State.getElem_loadedRegs (s : State) (x r : RegIdx) :
    (s.loadedRegs x)[r] = if r ≤ x then s.memRead (s.i + BitVec.ofNat 12 r.val) else s.v r := by
  simp [State.loadedRegs, State.indexed]

theorem State.toNat_indexAfterBulk (s : State) (x : RegIdx) :
    (s.indexAfterBulk x).toNat =
      if s.cfg.bulkRegisterOpsIncrementIndex = true then (s.i.toNat + x.val + 1) % 4096 else s.i.toNat := by
  rw [State.indexAfterBulk, apply_ite BitVec.toNat, State.indexed, BitVec.toNat_add, BitVec.toNat_ofNat,
    Nat.add_mod_mod, Nat.add_assoc]

theorem Element.same_setRegs (p : Element) (s : State) (r : Vector Byte 16) : p.Same s (s.setRegs r) := by
  cases p <;> simp [Element.Same]

/-! The obligations -/

/-- Settles O54: LD F is one write of I, and the glyph's address is the wrapped sum. -/
theorem fontCharacterAddress : Obligations.FontCharacterAddress := fun x s =>
  ⟨s.setI (s.glyphAddr x), exec_ldF x s, s.toNat_glyphAddr x, frame_setI s _⟩

/-- Settles O55: LD B is a run of three bytes from I on, which are the digits of Vx in order. -/
theorem bcdStoresThreeDigits : Obligations.BcdStoresThreeDigits := by
  intro x s
  have hlen : (bcdDigits (s.v x)).length ≤ 4096 := by simp [bcdDigits]
  have hdigit {k d : Nat} (hk : (bcdDigits (s.v x))[k]? = some (BitVec.ofNat 8 d)) (hd : d < 10) :
      ((s.memWriteList s.i (bcdDigits (s.v x))).memRead (s.i + BitVec.ofNat 12 k)).toNat = d := by
    rw [s.memRead_memWriteList_offset s.i hlen hk, toNat_ofNat_digit hd]
  have hbyte := (s.v x).isLt
  refine ⟨_, exec_ldB x s, ?hundreds, hdigit (k := 1) rfl (by omega), hdigit (k := 2) rfl (by omega),
    fun a h0 h1 h2 => ?other, frame_memWriteList s _ _⟩
  case hundreds => simpa only [BitVec.add_zero] using hdigit (k := 0) rfl (by omega)
  case other =>
    refine s.memRead_memWriteList_outside s.i hlen fun k hk => ?_
    match k, hk with
    | 0, _ => rwa [BitVec.add_zero]
    | 1, _ => exact h1
    | 2, _ => exact h2

/-- Settles O56: the run of bytes from I on is V0 to Vx in order, and I is written after it. -/
theorem bulkStoreWritesTheRegisters : Obligations.BulkStoreWritesTheRegisters := by
  intro x s
  have hlen : (s.regsUpTo x).length ≤ 4096 := by rw [s.length_regsUpTo]; omega
  refine ⟨_, exec_storeRegs x s, fun r hr => ?stored, fun a ha => ?other, s.toNat_indexAfterBulk x,
    (frame_memWriteList s _ _).trans (frame_setI _ _)⟩
  case stored =>
    rw [State.setI_memRead, s.memRead_memWriteList_offset s.i hlen (s.getElem?_regsUpTo hr)]
  case other =>
    rw [State.setI_memRead]
    refine s.memRead_memWriteList_outside s.i hlen fun k hk => ?_
    rw [s.length_regsUpTo] at hk
    exact ha ⟨k, by omega⟩ (Nat.le_of_lt_succ hk)

/-- Settles O57: the loaded registers come from memory up to Vx and are the old ones above it. -/
theorem bulkLoadReadsTheRegisters : Obligations.BulkLoadReadsTheRegisters := by
  intro x s
  refine ⟨_, exec_loadRegs x s, fun r hr => ?loaded, fun r hr => ?kept, s.toNat_indexAfterBulk x,
    fun p hp => ?elements⟩
  case loaded => rw [State.setI_v, State.setRegs_v, s.getElem_loadedRegs, if_pos hr]
  case kept => rw [State.setI_v, State.setRegs_v, s.getElem_loadedRegs, if_neg (not_le.mpr hr)]
  case elements => exact (p.same_setRegs s _).trans ((frame_setI _ _).2 p (List.mem_singleton.not.mpr hp))

end Sys2Proof.Machine

/-! The timers and the fault record (60_exceptions.md R222, R242, R243). -/

namespace Sys2Proof.Machine

/-! What RET and CALL can do -/

theorem exec_ret_cases {x : RegIdx} {s t : State} (h : exec (.ret x) s = .next t) :
    (s.stack = [] ∧ t = s.raise .stackUnderflow) ∨
      ∃ a rest, s.stack = a :: rest ∧ t = (s.setStack rest).setPc a := by
  cases h
  split
  · next hempty => exact .inl ⟨hempty, rfl⟩
  · next a rest hstack => exact .inr ⟨a, rest, hstack, rfl⟩

theorem exec_call_cases {nnn : Addr} {s t : State} (h : exec (.call nnn) s = .next t) :
    (s.cfg.stackLimit = some s.stack.length ∧ t = s.raise .stackOverflow) ∨
      (s.cfg.stackLimit ≠ some s.stack.length ∧ t = (s.push s.pc).setPc nnn) := by
  cases h
  split
  · next hlimit => exact .inl ⟨hlimit, rfl⟩
  · next hlimit => exact .inr ⟨hlimit, rfl⟩

/-! The elements an instruction may write -/

theorem frame_clearFlagMove (s : State) : Frame [15] [] s s.clearFlagMove := by
  rw [State.clearFlagMove]
  cases s.cfg.vfNonarith
  case clearAll => exact frame_setV s 15 0
  all_goals exact Frame.refl _ _ s

theorem frame_clearFlagLogic (s : State) : Frame [15] [] s s.clearFlagLogic := by
  rw [State.clearFlagLogic]
  cases s.cfg.vfNonarith
  case preserve => exact Frame.refl _ _ s
  all_goals exact frame_setV s 15 0

theorem frame_setRegs (s : State) (r : Vector Byte 16) : Frame (List.finRange 16) [] s (s.setRegs r) :=
  ⟨fun x hx => absurd (List.mem_finRange x) hx, fun p _ => p.same_setRegs s r⟩

theorem frame_execRet {x : RegIdx} {s t : State} (h : exec (.ret x) s = .next t) :
    Frame [] [.pc, .stack, .fault] s t := by
  obtain ⟨-, rfl⟩ | ⟨a, rest, -, rfl⟩ := exec_ret_cases h
  · exact (frame_raise s _).mono (by simp) (by simp)
  · exact ((frame_setStack s rest).trans (frame_setPc _ a)).mono (by simp) (by simp)

theorem frame_execCall {nnn : Addr} {s t : State} (h : exec (.call nnn) s = .next t) :
    Frame [] [.pc, .stack, .fault] s t := by
  obtain ⟨-, rfl⟩ | ⟨-, rfl⟩ := exec_call_cases h
  · exact (frame_raise s _).mono (by simp) (by simp)
  · exact ((frame_setStack s _).trans (frame_setPc _ nnn)).mono (by simp) (by simp)

theorem frame_execLdK {x : RegIdx} {s t : State} (h : exec (.ldK x) s = .next t) :
    Frame [x] [.pc, .waitingForKey] s t := by
  cases hedge : s.lastKey with
  | none =>
    cases (exec_ldK_of_no_edge x hedge).symm.trans h
    exact (frame_rewindAndWait s).mono (by simp) (by simp)
  | some k =>
    cases (exec_ldK_of_edge x hedge).symm.trans h
    exact (frame_setV s x _).mono (by simp) (by simp)

theorem frame_execAddI {x : RegIdx} {s t : State} (h : exec (.addI x) s = .next t) :
    Frame [15] [.index] s t := by
  cases h
  split
  · exact (frame_setI s _).trans (frame_setV _ 15 _)
  · exact (frame_setI s _).mono (by simp) (by simp)

/-- Fx55 and Fx65 write I back unchanged without their quirk. -/
theorem frame_setI_indexAfterBulk {s t : State} (x : RegIdx) (hi : t.i = s.i) :
    Frame [] (if s.cfg.bulkRegisterOpsIncrementIndex then [.index] else []) t (t.setI (s.indexAfterBulk x)) := by
  rw [State.indexAfterBulk]
  split
  · exact frame_setI t _
  · rw [← hi]
    exact Frame.refl _ _ t

theorem frame_execStoreRegs {x : RegIdx} {s t : State} (h : exec (.storeRegs x) s = .next t) :
    Frame [] (writtenParts s.cfg (.storeRegs x)) s t := by
  obtain rfl := Host.Outcome.next.inj ((exec_storeRegs x s).symm.trans h)
  have hmem := frame_memWriteList s s.i (s.regsUpTo x)
  refine (hmem.trans (frame_setI_indexAfterBulk x (hmem.2 .index (by decide)))).mono (by simp) ?_
  rw [writtenParts]
  split <;> simp

theorem frame_execLoadRegs {x : RegIdx} {s t : State} (h : exec (.loadRegs x) s = .next t) :
    Frame (List.finRange 16) (writtenParts s.cfg (.loadRegs x)) s t := by
  obtain rfl := Host.Outcome.next.inj ((exec_loadRegs x s).symm.trans h)
  have hregs := frame_setRegs s (s.loadedRegs x)
  refine (hregs.trans (frame_setI_indexAfterBulk x (hregs.2 .index List.not_mem_nil))).mono (by simp) ?_
  rw [writtenParts, List.nil_append]
  exact List.Subset.refl _

/-- Every instruction keeps the elements that the access table does not give it, whatever registers it writes
(10_state.md R37). -/
theorem exec_frame_writtenParts {i : Instr} {s t : State} (h : exec i s = .next t) :
    ∃ regs, Frame regs (writtenParts s.cfg i) s t := by
  cases i with
  | ret => exact ⟨_, frame_execRet h⟩
  | call => exact ⟨_, frame_execCall h⟩
  | ldK => exact ⟨_, frame_execLdK h⟩
  | addI => exact ⟨_, frame_execAddI h⟩
  | sys => cases h; exact ⟨[], Frame.refl _ _ s⟩
  | jp | jpV0 => cases h; exact ⟨_, frame_setPc s _⟩
  | seImm | sneImm | seReg | sneReg | skp | sknp => cases h; exact ⟨_, frame_skipIf s _⟩
  | ldImm x | addImm x | rnd x | ldFromDt x => cases h; exact ⟨_, frame_setV s x _⟩
  | ldReg x => cases h; exact ⟨_, (frame_setV s x _).trans (frame_clearFlagMove _)⟩
  | orReg x | andReg x | xorReg x => cases h; exact ⟨_, (frame_setV s x _).trans (frame_clearFlagLogic _)⟩
  | addReg x | sub x | shr x | subn x | shl x => cases h; exact ⟨_, frame_setResultFlag s x _ _⟩
  | cls => cases h; exact ⟨_, frame_setDisp s _⟩
  | drw => cases h; exact ⟨_, (frame_setDisp s _).trans (frame_setV _ 15 _)⟩
  | ldDt => cases h; exact ⟨_, frame_setDt s _⟩
  | ldSt => cases h; exact ⟨_, frame_setSt s _⟩
  | ldI | ldF => cases h; exact ⟨_, frame_setI s _⟩
  | ldB => cases h; exact ⟨_, frame_memWriteList s _ _⟩
  | storeRegs => exact ⟨_, frame_execStoreRegs h⟩
  | loadRegs => exact ⟨_, frame_execLoadRegs h⟩

theorem exec_same {i : Instr} {s t : State} (h : exec i s = .next t) {p : Element}
    (hp : p ∉ writtenParts s.cfg i) : p.Same s t := by
  obtain ⟨_, _, hparts⟩ := exec_frame_writtenParts h
  exact hparts p hp

theorem dt_mem_writtenParts {c : Config} {i : Instr} : .dt ∈ writtenParts c i ↔ ∃ x, i = .ldDt x := by
  cases i <;> simp [writtenParts, apply_ite (Element.dt ∈ ·)]

theorem st_mem_writtenParts {c : Config} {i : Instr} : .st ∈ writtenParts c i ↔ ∃ x, i = .ldSt x := by
  cases i <;> simp [writtenParts, apply_ite (Element.st ∈ ·)]

theorem fault_mem_writtenParts {c : Config} {i : Instr} :
    .fault ∈ writtenParts c i ↔ (∃ x, i = .ret x) ∨ ∃ nnn, i = .call nnn := by
  cases i <;> simp [writtenParts, apply_ite (Element.fault ∈ ·)]

/-- What no instruction writes: the accumulator, the key inputs, the signals of stages 5 and 6 with their count, the
configuration, and the model's own `inputs` and `cycle`. -/
theorem writtenParts_subset (c : Config) (i : Instr) : writtenParts c i ⊆
    [.index, .pc, .stack, .dt, .st, .disp, .mem, .fault, .waitingForKey] := by
  cases i
  case storeRegs | loadRegs => rw [writtenParts]; split <;> decide
  all_goals simp [writtenParts]

theorem acc_of_exec {i : Instr} {s t : State} (h : exec i s = .next t) : t.acc = s.acc :=
  exec_same h (p := .acc) fun hp => absurd (writtenParts_subset _ _ hp) (by decide)

theorem input_of_exec {i : Instr} {s t : State} (h : exec i s = .next t) : t.input = s.input := by
  have hinputs : t.inputs = s.inputs :=
    exec_same h (p := .inputs) fun hp => absurd (writtenParts_subset _ _ hp) (by decide)
  have hcycle : t.cycle = s.cycle :=
    exec_same h (p := .cycle) fun hp => absurd (writtenParts_subset _ _ hp) (by decide)
  simp only [State.input, hinputs, hcycle]

/-- All an instruction can do to the fault record: keep it, or raise the fault of RET or of CALL. -/
theorem fault_of_exec {i : Instr} {s t : State} (h : exec i s = .next t) :
    t.fault = s.fault ∨
      ((∃ x, i = .ret x) ∧ s.stack = [] ∧ t = s.raise .stackUnderflow) ∨
      ((∃ nnn, i = .call nnn) ∧ s.cfg.stackLimit = some s.stack.length ∧ t = s.raise .stackOverflow) := by
  by_cases hp : .fault ∈ writtenParts s.cfg i
  case neg => exact .inl (exec_same h hp)
  obtain ⟨x, rfl⟩ | ⟨nnn, rfl⟩ := fault_mem_writtenParts.mp hp
  · obtain ⟨hempty, rfl⟩ | ⟨_, _, -, rfl⟩ := exec_ret_cases h
    · exact .inr (.inl ⟨⟨x, rfl⟩, hempty, rfl⟩)
    · exact .inl rfl
  · obtain ⟨hlimit, rfl⟩ | ⟨-, rfl⟩ := exec_call_cases h
    · exact .inr (.inr ⟨⟨nnn, rfl⟩, hlimit, rfl⟩)
    · exact .inl rfl

/-! The tick after a handler -/

theorem State.afterExec_of_fault {u : State} (hfault : u.fault ≠ none) (i : Instr) :
    u.afterExec i = u.endCycle := by
  rw [State.afterExec]
  split
  · rfl
  · contradiction

theorem State.afterExec_of_no_fault {u : State} (hfault : u.fault = none) (i : Instr) :
    u.afterExec i = (u.renderSignal i).tick.endCycle := by
  simp only [State.afterExec, hfault]

theorem State.fault_afterExec (u : State) (i : Instr) : (u.afterExec i).fault = u.fault :=
  (frame_afterExec u i).2 .fault (by decide)

theorem State.fault_unhandledCycle (s : State) : s.unhandledCycle.fault = s.fault :=
  (frame_unhandledCycle s).2 .fault (by decide)

theorem State.v_afterExec (u : State) (i : Instr) (x : RegIdx) : (u.afterExec i).v x = u.v x :=
  (frame_afterExec u i).1 x List.not_mem_nil

/-- The render signal of stage 6 plays no part in the tick. -/
theorem State.timers_afterExec {u : State} (hfault : u.fault = none) (i : Instr) :
    (u.afterExec i).dt = (u.timerTick u.input.elapsedMs).dt ∧
      (u.afterExec i).st = (u.timerTick u.input.elapsedMs).st ∧
      (u.afterExec i).acc = (u.timerTick u.input.elapsedMs).acc := by
  rw [State.afterExec_of_no_fault hfault, State.renderSignal]
  split <;> exact ⟨rfl, rfl, rfl⟩

theorem State.acc_timerTick (s : State) (ms : Nat) : (s.timerTick ms).acc = (s.acc + 60 * ms) % 1000 := rfl

/-- A cycle without a fault ticks the accumulator once, from the value it had before the cycle. -/
theorem acc_of_step {s t : State} (h : step s = .next t) (hfault : t.fault = none) :
    t.acc = (s.timerTick s.input.elapsedMs).acc := by
  obtain ⟨-, ⟨i, u, -, hexec, rfl⟩ | ⟨e, -, rfl⟩⟩ := step_cases h
  · rw [State.fault_afterExec] at hfault
    obtain ⟨-, -, hacc⟩ := State.timers_afterExec hfault i
    rw [hacc, State.acc_timerTick, acc_of_exec hexec, input_of_exec hexec]
    rfl
  · rfl

/-- A cycle that faults is RET or CALL raising, with no tick after it. -/
theorem timers_of_step_fault {s t : State} (h : step s = .next t) (hfault : t.fault ≠ none) :
    t.dt = s.dt ∧ t.st = s.st ∧ t.acc = s.acc := by
  obtain ⟨hnone, ⟨i, u, -, hexec, rfl⟩ | ⟨e, -, rfl⟩⟩ := step_cases h
  · rw [State.fault_afterExec] at hfault
    rw [State.afterExec_of_fault hfault]
    obtain hkept | ⟨-, -, rfl⟩ | ⟨-, -, rfl⟩ := fault_of_exec hexec
    · exact absurd (hkept.trans hnone) hfault
    · exact ⟨rfl, rfl, rfl⟩
    · exact ⟨rfl, rfl, rfl⟩
  · rw [State.fault_unhandledCycle] at hfault
    exact absurd hnone hfault

/-! The obligations -/

/-- Settles O19: the tick of `afterExec` runs on the handler's result; a cycle that faults skips it. -/
theorem tickRunsAfterTheHandler : Obligations.TickRunsAfterTheHandler := by
  intro s x hfault
  refine ⟨fun hdecode => ?ldDt, fun hdecode => ?ldSt, fun hdecode => ?ldFromDt,
    fun t hstep => ⟨acc_of_step hstep, timers_of_step_fault hstep⟩⟩
  case ldDt =>
    have hstep := step_of_exec hfault hdecode (exec_ldDt x s.beforeExec)
    obtain ⟨hdt, hst, -⟩ := State.timers_afterExec (u := s.beforeExec.setDt (s.v x)) hfault (.ldDt x)
    exact ⟨_, hstep, hdt, hst⟩
  case ldSt =>
    have hstep := step_of_exec hfault hdecode (exec_ldSt x s.beforeExec)
    obtain ⟨hdt, hst, -⟩ := State.timers_afterExec (u := s.beforeExec.setSt (s.v x)) hfault (.ldSt x)
    exact ⟨_, hstep, hst, hdt⟩
  case ldFromDt =>
    have hstep := step_of_exec hfault hdecode (exec_ldFromDt x s.beforeExec)
    obtain ⟨hdt, -, -⟩ := State.timers_afterExec (u := s.beforeExec.setV x s.dt) hfault (.ldFromDt x)
    exact ⟨_, hstep, (State.v_afterExec _ _ x).trans (State.v_setV_self _ x s.dt), hdt⟩

/-- Settles O20: the access table gives DT to LD DT alone, ST to LD ST alone, and the accumulator to none. -/
theorem onlyTwoInstructionsWriteTheTimers : Obligations.OnlyTwoInstructionsWriteTheTimers := by
  refine ⟨fun i s t hexec => ⟨fun hdt => ?dt, fun hst => ?st, acc_of_exec hexec⟩, rfl, rfl⟩
  case dt => exact dt_mem_writtenParts.mp (by_contra fun hp => hdt (exec_same hexec hp))
  case st => exact st_mem_writtenParts.mp (by_contra fun hp => hst (exec_same hexec hp))

/-- Settles O22: from no fault, a StackUnderflow can only be RET's, and RET on an empty stack raises it. -/
theorem stackUnderflowOnlyByRetOnEmptyStack : Obligations.StackUnderflowOnlyByRetOnEmptyStack := by
  intro i s t hnone hexec
  constructor
  · rintro ⟨a, hfault⟩
    obtain hkept | ⟨hret, hempty, -⟩ | ⟨-, -, rfl⟩ := fault_of_exec hexec
    · simp [hkept, hnone] at hfault
    · exact ⟨hret, hempty⟩
    · simp [State.raise] at hfault
  · rintro ⟨⟨x, rfl⟩, hempty⟩
    obtain ⟨-, rfl⟩ | ⟨a, rest, hcons, -⟩ := exec_ret_cases hexec
    · exact ⟨s.fetchAddr, rfl⟩
    · simp [hempty] at hcons

end Sys2Proof.Machine

/-! The key inputs of a cycle (70_reset_and_hazards.md R269). -/

namespace Sys2Proof.Machine

theorem keyInputs_of_exec {i : Instr} {s t : State} (h : exec i s = .next t) :
    t.keypad = s.keypad ∧ t.lastKey = s.lastKey := by
  have hkeypad : .keypad ∉ writtenParts s.cfg i := fun hp => absurd (writtenParts_subset _ _ hp) (by decide)
  have hlastKey : .lastKey ∉ writtenParts s.cfg i := fun hp => absurd (writtenParts_subset _ _ hp) (by decide)
  exact ⟨exec_same h hkeypad, exec_same h hlastKey⟩

theorem State.keyInputs_afterExec (u : State) (i : Instr) :
    (u.afterExec i).keypad = u.keypad ∧ (u.afterExec i).lastKey = u.lastKey := by
  obtain ⟨-, hparts⟩ := frame_afterExec u i
  exact ⟨hparts .keypad (by decide), hparts .lastKey (by decide)⟩

/-- No stage after stage 1 writes the key inputs: neither a handler nor the stages after it (R269). -/
theorem keyInputs_of_step {s t : State} (h : step s = .next t) :
    t.keypad = s.input.keys ∧ t.lastKey = s.input.edge := by
  obtain ⟨-, ⟨i, u, -, hexec, rfl⟩ | ⟨e, -, rfl⟩⟩ := step_cases h
  · obtain ⟨hkeypad, hlastKey⟩ := keyInputs_of_exec hexec
    obtain ⟨hkeypad', hlastKey'⟩ := State.keyInputs_afterExec u i
    exact ⟨hkeypad'.trans hkeypad, hlastKey'.trans hlastKey⟩
  · exact ⟨rfl, rfl⟩

/-- Settles O13: the access table gives the key inputs to no handler, so a cycle ends with those stage 1 sampled. -/
theorem keyInputsChangeOnlyByStageOne : Obligations.KeyInputsChangeOnlyByStageOne :=
  ⟨fun _ _ _ hexec => keyInputs_of_exec hexec, fun _ _ hstep => keyInputs_of_step hstep⟩

end Sys2Proof.Machine

/-! The decoder and the encoder are inverse (30_encoding.md sections 3 and 4). -/

namespace Sys2Proof

theorem Op0Decode.isSys_kkOnly {nnn : Addr} : Op0Decode.kkOnly.isSys nnn = true ↔
    nnn.extractLsb' 0 8 ≠ 0xE0 ∧ nnn.extractLsb' 0 8 ≠ 0xEE := by
  simp [Op0Decode.isSys]

theorem Op0Decode.isSys_fullWord {nnn : Addr} :
    Op0Decode.fullWord.isSys nnn = true ↔ nnn ≠ 0x0E0 ∧ nnn ≠ 0x0EE := by
  simp [Op0Decode.isSys]

/-! From the instruction to its word and back -/

theorem decodeWord_of_op_eq_zero (c : Op0Decode) {w : Word} (hop : (decodeFields w).op.val = 0x0) :
    decodeWord c w = .ok (dispatch0 c (decodeFields w)) := by
  simp only [decodeWord, dispatch, hop]

/-- Under `kk_only` the field x plays no part; under `full_word` it is 0, so the word is a single one (R74). -/
theorem dispatch0_of_allowsIgnoredX {c : Op0Decode} {x : RegIdx} (hx : c.allowsIgnoredX x = true) :
    dispatch0 c (decodeFields (wordXkk 0x0 x 0xE0)) = .cls x ∧
      dispatch0 c (decodeFields (wordXkk 0x0 x 0xEE)) = .ret x := by
  cases c with
  | kkOnly => simp [dispatch0]
  | fullWord =>
    obtain rfl : x = 0 := beq_iff_eq.mp hx
    exact ⟨rfl, rfl⟩

theorem dispatch0_of_isSys {c : Op0Decode} {nnn : Addr} (hsys : c.isSys nnn = true) :
    dispatch0 c (decodeFields (wordNnn 0x0 nnn)) = .sys nnn := by
  cases c with
  | kkOnly =>
    obtain ⟨hcls, hret⟩ := Op0Decode.isSys_kkOnly.mp hsys
    rw [dispatch0, fields_wordNnn_kk, if_neg hcls, if_neg hret, fields_wordNnn_nnn]
  | fullWord =>
    obtain ⟨hcls, hret⟩ := Op0Decode.isSys_fullWord.mp hsys
    rw [dispatch0, fields_wordNnn_nnn, if_neg hcls, if_neg hret]

/-- The op of each layout selects the first level of the dispatch, and the field that the encoder fixed the second. -/
theorem decodeWord_encode {c : Op0Decode} {i : Instr} (hwf : i.wellFormed c = true) :
    decodeWord c (encode i) = .ok i := by
  cases i with
  | cls x =>
    obtain ⟨hcls, -⟩ := dispatch0_of_allowsIgnoredX hwf
    rw [encode, decodeWord_of_op_eq_zero c (fields_wordXkk_op 0x0 x 0xE0), hcls]
  | ret x =>
    obtain ⟨-, hret⟩ := dispatch0_of_allowsIgnoredX hwf
    rw [encode, decodeWord_of_op_eq_zero c (fields_wordXkk_op 0x0 x 0xEE), hret]
  | sys nnn =>
    rw [encode, decodeWord_of_op_eq_zero c (fields_wordNnn_op 0x0 nnn), dispatch0_of_isSys hwf]
  | jp | call | ldI | jpV0 => simp [decodeWord, encode, dispatch]
  | seImm | sneImm | ldImm | addImm | rnd => simp [decodeWord, encode, dispatch]
  | seReg | sneReg | drw => simp [decodeWord, encode, dispatch]
  | ldReg | orReg | andReg | xorReg | addReg | sub | shr | subn | shl =>
    simp [decodeWord, encode, dispatch, dispatch8]
  | skp | sknp => simp [decodeWord, encode, dispatch, dispatchE]
  | ldFromDt | ldK | ldDt | ldSt | addI | ldF | ldB | storeRegs | loadRegs =>
    simp [decodeWord, encode, dispatch, dispatchF]

/-- Settles O1: every layout keeps its fields, and they select the instruction they were taken from. -/
theorem decodeOfEncodeIsTheInstruction : Obligations.DecodeOfEncodeIsTheInstruction :=
  fun _ _ hwf => decodeWord_encode hwf

/-! From a word to its instruction and back -/

section
variable {w : Word} {op : BitVec 4} (hop : (decodeFields w).op.val = op.toNat)
include hop

theorem wordNnn_of_op : wordNnn op (decodeFields w).nnn = w := by
  obtain rfl : w.extractLsb' 12 4 = op := BitVec.eq_of_toNat_eq hop
  exact wordNnn_fields w

theorem wordXkk_of_op : wordXkk op (decodeFields w).x (decodeFields w).kk = w := by
  obtain rfl : w.extractLsb' 12 4 = op := BitVec.eq_of_toNat_eq hop
  exact wordXkk_fields w

theorem wordXyn_of_op : wordXyn op (decodeFields w).x (decodeFields w).y (decodeFields w).n = w := by
  obtain rfl : w.extractLsb' 12 4 = op := BitVec.eq_of_toNat_eq hop
  exact wordXyn_fields w

theorem wordXkk_of_op_of_kk {kk : Byte} (hkk : (decodeFields w).kk = kk) :
    wordXkk op (decodeFields w).x kk = w :=
  hkk ▸ wordXkk_of_op hop

theorem wordXyn_of_op_of_n {n : BitVec 4} (hn : (decodeFields w).n = n) :
    wordXyn op (decodeFields w).x (decodeFields w).y n = w :=
  hn ▸ wordXyn_of_op hop

end

theorem extractLsb'_nnn (w : Word) : (decodeFields w).nnn.extractLsb' 0 8 = (decodeFields w).kk := by
  have hkk := fields_wordNnn_kk (w.extractLsb' 12 4) (decodeFields w).nnn
  rw [wordNnn_fields] at hkk
  exact hkk.symm

/-- The word of the instruction is `w`, and dispatch can select it. -/
def Spells (c : Op0Decode) (w : Word) (i : Instr) : Prop := encode i = w ∧ i.wellFormed c = true

theorem spells_dispatch0 (c : Op0Decode) {w : Word} (hop : (decodeFields w).op.val = 0x0) :
    Spells c w (dispatch0 c (decodeFields w)) := by
  have hword := wordNnn_of_op (op := 0x0) hop
  cases c with
  | kkOnly =>
    rw [dispatch0]
    split_ifs with hcls hret
    · exact ⟨wordXkk_of_op_of_kk hop hcls, rfl⟩
    · exact ⟨wordXkk_of_op_of_kk hop hret, rfl⟩
    · refine ⟨hword, Op0Decode.isSys_kkOnly.mpr ?_⟩
      rw [extractLsb'_nnn]
      exact ⟨hcls, hret⟩
  | fullWord =>
    rw [dispatch0]
    split_ifs with hcls hret
    · rw [hcls] at hword
      subst hword
      exact ⟨rfl, rfl⟩
    · rw [hret] at hword
      subst hword
      exact ⟨rfl, rfl⟩
    · exact ⟨hword, Op0Decode.isSys_fullWord.mpr ⟨hcls, hret⟩⟩

theorem spells_of_dispatch8 {c : Op0Decode} {w : Word} {i : Instr} (hop : (decodeFields w).op.val = 0x8)
    (h : dispatch8 (decodeFields w) = .ok i) : Spells c w i := by
  unfold dispatch8 at h
  split at h
  case h_10 => cases h
  all_goals
    next hn =>
    cases h
    exact ⟨wordXyn_of_op_of_n hop (BitVec.eq_of_toNat_eq hn), rfl⟩

theorem spells_of_dispatchE {c : Op0Decode} {w : Word} {i : Instr} (hop : (decodeFields w).op.val = 0xE)
    (h : dispatchE (decodeFields w) = .ok i) : Spells c w i := by
  unfold dispatchE at h
  split_ifs at h with hkk hkk
  all_goals
    cases h
    exact ⟨wordXkk_of_op_of_kk hop hkk, rfl⟩

theorem spells_of_dispatchF {c : Op0Decode} {w : Word} {i : Instr} (hop : (decodeFields w).op.val = 0xF)
    (h : dispatchF (decodeFields w) = .ok i) : Spells c w i := by
  unfold dispatchF at h
  split_ifs at h with hkk hkk hkk hkk hkk hkk hkk hkk hkk
  all_goals
    cases h
    exact ⟨wordXkk_of_op_of_kk hop hkk, rfl⟩

theorem spells_of_decodeWord {c : Op0Decode} {w : Word} {i : Instr} (h : decodeWord c w = .ok i) :
    Spells c w i := by
  rw [decodeWord] at h
  unfold dispatch at h
  split at h
  case h_1 hop => cases h; exact spells_dispatch0 c hop
  case h_2 hop | h_3 hop | h_11 hop | h_12 hop => cases h; exact ⟨wordNnn_of_op hop, rfl⟩
  case h_4 hop | h_5 hop | h_7 hop | h_8 hop | h_13 hop => cases h; exact ⟨wordXkk_of_op hop, rfl⟩
  case h_6 hop | h_10 hop =>
    split_ifs at h with hn
    cases h
    exact ⟨wordXyn_of_op_of_n hop hn, rfl⟩
  case h_9 hop => exact spells_of_dispatch8 hop h
  case h_14 hop => cases h; exact ⟨wordXyn_of_op hop, rfl⟩
  case h_15 hop => exact spells_of_dispatchE hop h
  case h_16 =>
    have := (decodeFields w).op.isLt
    have hop : (decodeFields w).op.val = 0xF := by grind
    exact spells_of_dispatchF hop h

/-- Settles O2: the fields that the dispatch tested and those it passed on are together the whole word. -/
theorem encodeOfDecodeIsTheWord : Obligations.EncodeOfDecodeIsTheWord :=
  fun _ _ _ h => spells_of_decodeWord h

end Sys2Proof

/-! The cycle around the handlers, and the invariant of the machine (30_encoding.md section 7, 60_exceptions.md). -/

namespace Sys2Proof.Machine

/-! Every cycle completes -/

/-- Every arm of `exec` is a `.next`, a recorded fault too (R223). -/
theorem exists_next_exec (i : Instr) (s : State) : ∃ t, exec i s = .next t := by
  cases i <;> exact ⟨_, rfl⟩

theorem step_of_unhandled {s : State} {e : DecodeError} (hf : s.fault = none)
    (hd : decodeWord s.cfg.op0Decode s.fetch = .error e) : step s = .next s.beforeExec.unhandledCycle := by
  simp only [step, hf, hd]

theorem step_of_fault {s : State} {r : FaultRecord} (hf : s.fault = some r) : step s = .fault (.halted r) := by
  simp only [step, hf]

theorem exists_next_step {s : State} (hf : s.fault = none) : ∃ t, step s = .next t := by
  cases hd : decodeWord s.cfg.op0Decode s.fetch with
  | error e => exact ⟨_, step_of_unhandled hf hd⟩
  | ok i =>
    obtain ⟨t, hexec⟩ := exists_next_exec i s.beforeExec
    exact ⟨_, step_of_exec hf hd hexec⟩

/-- Settles O10: every arm of `exec` answers a next state, and both kinds of cycle do. -/
theorem everyCycleCompletes : Obligations.EveryCycleCompletes :=
  ⟨exists_next_exec, fun _ hf => exists_next_step hf⟩

/-- Settles O11: without a recorded fault the cycle completes, with one the step answers that record. -/
theorem haltedExactlyWhenFaultRecorded : Obligations.HaltedExactlyWhenFaultRecorded := by
  intro s r
  refine ⟨fun hstep => ?_, step_of_fault⟩
  cases hf : s.fault with
  | none =>
    obtain ⟨t, ht⟩ := exists_next_step hf
    cases ht.symm.trans hstep
  | some r' =>
    cases (step_of_fault hf).symm.trans hstep
    rfl

/-! The elements a handler writes -/

theorem stack_mem_writtenParts {c : Config} {i : Instr} :
    .stack ∈ writtenParts c i ↔ (∃ x, i = .ret x) ∨ ∃ nnn, i = .call nnn := by
  cases i <;> simp [writtenParts, apply_ite (Element.stack ∈ ·)]

theorem waitingForKey_mem_writtenParts {c : Config} {i : Instr} :
    .waitingForKey ∈ writtenParts c i ↔ ∃ x, i = .ldK x := by
  cases i <;> simp [writtenParts, apply_ite (Element.waitingForKey ∈ ·)]

theorem cfg_of_exec {i : Instr} {s t : State} (h : exec i s = .next t) : t.cfg = s.cfg :=
  exec_same h (p := .cfg) fun hp => absurd (writtenParts_subset _ _ hp) (by decide)

theorem displayChanged_of_exec {i : Instr} {s t : State} (h : exec i s = .next t) :
    t.displayChanged = s.displayChanged :=
  exec_same h (p := .displayChanged) fun hp => absurd (writtenParts_subset _ _ hp) (by decide)

theorem warnUnhandled_of_exec {i : Instr} {s t : State} (h : exec i s = .next t) :
    t.warnUnhandled = s.warnUnhandled :=
  exec_same h (p := .warnUnhandled) fun hp => absurd (writtenParts_subset _ _ hp) (by decide)

/-- A handler that starts to wait is LD Vx, K in a cycle without an edge (R182). -/
theorem waitingForKey_of_exec {i : Instr} {s t : State} (h : exec i s = .next t) :
    t.waitingForKey = s.waitingForKey ∨ ((∃ x, i = .ldK x) ∧ s.lastKey = none) := by
  by_cases hp : .waitingForKey ∈ writtenParts s.cfg i
  case neg => exact .inl (exec_same h hp)
  obtain ⟨x, rfl⟩ := waitingForKey_mem_writtenParts.mp hp
  cases hedge : s.lastKey with
  | none => exact .inr ⟨⟨x, rfl⟩, rfl⟩
  | some k =>
    cases (exec_ldK_of_edge x hedge).symm.trans h
    exact .inl rfl

/-- All a handler can do to the stack: keep it, pop it, or push where the limit is not reached. -/
theorem stack_of_exec {i : Instr} {s t : State} (h : exec i s = .next t) :
    t.stack = s.stack ∨ (∃ a, s.stack = a :: t.stack) ∨
      (s.cfg.stackLimit ≠ some s.stack.length ∧ t.stack = s.pc :: s.stack) := by
  by_cases hp : .stack ∈ writtenParts s.cfg i
  case neg => exact .inl (exec_same h hp)
  obtain ⟨x, rfl⟩ | ⟨nnn, rfl⟩ := stack_mem_writtenParts.mp hp
  · obtain ⟨-, rfl⟩ | ⟨a, rest, hcons, rfl⟩ := exec_ret_cases h
    · exact .inl rfl
    · exact .inr (.inl ⟨a, hcons⟩)
  · obtain ⟨-, rfl⟩ | ⟨hlimit, rfl⟩ := exec_call_cases h
    · exact .inl rfl
    · exact .inr (.inr ⟨hlimit, rfl⟩)

theorem State.mem_skipIf (s : State) (c : Bool) : (s.skipIf c).mem = s.mem := by cases c <;> rfl

theorem State.mem_clearFlagMove (s : State) : s.clearFlagMove.mem = s.mem := by
  rw [State.clearFlagMove]
  cases s.cfg.vfNonarith <;> rfl

theorem State.mem_clearFlagLogic (s : State) : s.clearFlagLogic.mem = s.mem := by
  rw [State.clearFlagLogic]
  cases s.cfg.vfNonarith <;> rfl

/-- All a handler can do to the listed cells: keep them, or write a run of bytes from I on. -/
theorem mem_of_exec {i : Instr} {s t : State} (h : exec i s = .next t) :
    t.mem = s.mem ∨ ∃ bs, t.mem = (s.memWriteList s.i bs).mem := by
  cases i with
  | ldB | storeRegs => cases h; exact .inr ⟨_, rfl⟩
  | ret => obtain ⟨-, rfl⟩ | ⟨a, rest, -, rfl⟩ := exec_ret_cases h <;> exact .inl rfl
  | call => obtain ⟨-, rfl⟩ | ⟨-, rfl⟩ := exec_call_cases h <;> exact .inl rfl
  | seImm | sneImm | seReg | sneReg | skp | sknp => cases h; exact .inl (s.mem_skipIf _)
  | ldReg => cases h; exact .inl (State.mem_clearFlagMove _)
  | orReg | andReg | xorReg => cases h; exact .inl (State.mem_clearFlagLogic _)
  | ldK x =>
    cases hedge : s.lastKey with
    | none => cases (exec_ldK_of_no_edge x hedge).symm.trans h; exact .inl rfl
    | some k => cases (exec_ldK_of_edge x hedge).symm.trans h; exact .inl rfl
  | addI => cases h; left; split <;> rfl
  | cls | sys | jp | jpV0 | ldImm | addImm | addReg | sub | shr | subn | shl | ldI | rnd | drw | ldFromDt | ldDt
  | ldSt | ldF | loadRegs => cases h; exact .inl rfl

/-! Each stage of a cycle keeps the invariant -/

/-- The one-cycle outputs are all 0, as after stage 1 (R82). -/
def State.Quiet (s : State) : Prop :=
  s.displayChanged = false ∧ s.warnUnhandled = false ∧ s.waitingForKey = false

theorem State.quiet_beforeExec (s : State) : s.beforeExec.Quiet := ⟨rfl, rfl, rfl⟩

theorem State.Inv.beforeExec {s : State} (h : s.Inv) (hf : s.fault = none) : s.beforeExec.Inv where
  cfgValid := h.cfgValid
  memWf := h.memWf
  accBelow := h.accBelow
  stackDepth := h.stackDepth
  faultCause r hr := by cases hf.symm.trans hr
  oneEvent := ⟨fun hne => absurd hf hne, nofun, nofun⟩

theorem State.Inv.timerTick {s : State} (h : s.Inv) (ms : Nat) : (s.timerTick ms).Inv :=
  { h with accBelow := Nat.mod_lt _ (by decide) }

theorem State.Inv.endCycle {s : State} (h : s.Inv) : s.endCycle.Inv := { h with }

/-- Stage 6 adds no second event: an instruction that signals the display neither warns nor waits nor faults. -/
theorem State.Inv.renderSignal {s : State} (h : s.Inv) (i : Instr) (hf : s.fault = none)
    (hi : signalsDisplay i = true → s.warnUnhandled = false ∧ s.waitingForKey = false) :
    (s.renderSignal i).Inv := by
  rw [State.renderSignal]
  split
  · next hsignal =>
    obtain ⟨hwarn, hwait⟩ := hi hsignal
    exact { h with oneEvent := ⟨fun hne => absurd hf hne, fun hw => absurd (hwarn.symm.trans hw) Bool.false_ne_true,
      fun hw => absurd (hwait.symm.trans hw) Bool.false_ne_true⟩ }
  · exact h

theorem State.Inv.noteUnhandled {s : State} (h : s.Inv) (hf : s.fault = none) (hquiet : s.Quiet) :
    s.noteUnhandled.Inv := by
  obtain ⟨hdisplay, -, hwait⟩ := hquiet
  exact { h with oneEvent := ⟨fun hne => absurd hf hne, fun _ => ⟨hwait, hdisplay⟩,
    fun hw => absurd (hwait.symm.trans hw) Bool.false_ne_true⟩ }

/-- A fault is recorded with the address before the advanced pc, and its handler writes nothing else. -/
theorem State.Inv.raise {s : State} (h : s.Inv) (hquiet : s.Quiet) (k : FaultKind)
    (hcause : match k with
      | .stackUnderflow => s.stack = []
      | .stackOverflow => s.cfg.stackLimit = some s.stack.length) : (s.raise k).Inv := by
  obtain ⟨hdisplay, hwarn, hwait⟩ := hquiet
  refine { h with faultCause := fun r hr => ?_, oneEvent := ?_ }
  · cases hr
    exact ⟨(BitVec.sub_add_cancel s.pc 2).symm, hcause⟩
  · exact ⟨fun _ => ⟨hwarn, hwait, hdisplay⟩, fun hw => absurd (hwarn.symm.trans hw) Bool.false_ne_true,
      fun hw => absurd (hwait.symm.trans hw) Bool.false_ne_true⟩

theorem memWf_of_exec {i : Instr} {s t : State} (hwf : s.mem.wf s.cfg.resetByte = true)
    (hexec : exec i s = .next t) : t.mem.wf t.cfg.resetByte = true := by
  rw [cfg_of_exec hexec]
  obtain hmem | ⟨bs, hmem⟩ := mem_of_exec hexec
  · rwa [hmem]
  · rw [hmem]
    exact s.wf_memWriteList s.i bs hwf

theorem stackDepth_of_exec {i : Instr} {s t : State} {l : Nat}
    (hdepth : s.cfg.stackLimit = some l → s.stack.length ≤ l) (hexec : exec i s = .next t)
    (hl : t.cfg.stackLimit = some l) : t.stack.length ≤ l := by
  rw [cfg_of_exec hexec] at hl
  have hle := hdepth hl
  obtain hkept | ⟨a, hpop⟩ | ⟨hlimit, hpush⟩ := stack_of_exec hexec
  · rwa [hkept]
  · rw [hpop, List.length_cons] at hle
    omega
  · have hne : l ≠ s.stack.length := fun heq => hlimit (heq ▸ hl)
    rw [hpush, List.length_cons]
    omega

/-- Stage 5 keeps the invariant: a fault is the only event then, or it is a wait for a key. -/
theorem inv_of_exec {i : Instr} {s t : State} (h : s.Inv) (hf : s.fault = none) (hquiet : s.Quiet)
    (hexec : exec i s = .next t) : t.Inv := by
  obtain hkept | ⟨-, hempty, rfl⟩ | ⟨-, hlimit, rfl⟩ := fault_of_exec hexec
  · have hnone : t.fault = none := hkept.trans hf
    obtain ⟨hdisplay, hwarn, hwait⟩ := hquiet
    rw [← displayChanged_of_exec hexec] at hdisplay
    rw [← warnUnhandled_of_exec hexec] at hwarn
    exact {
      cfgValid := cfg_of_exec hexec ▸ h.cfgValid
      memWf := memWf_of_exec h.memWf hexec
      accBelow := acc_of_exec hexec ▸ h.accBelow
      stackDepth := fun l => stackDepth_of_exec (h.stackDepth l) hexec
      faultCause := fun r hr => by cases hnone.symm.trans hr
      oneEvent := by
        refine ⟨fun hne => absurd hnone hne, fun hw => absurd (hwarn.symm.trans hw) Bool.false_ne_true,
          fun hw => ⟨hdisplay, ?_⟩⟩
        obtain hkept | ⟨-, hedge⟩ := waitingForKey_of_exec hexec
        · exact absurd ((hkept.trans hwait).symm.trans hw) Bool.false_ne_true
        · exact (keyInputs_of_exec hexec).2.trans hedge }
  · exact h.raise hquiet .stackUnderflow hempty
  · exact h.raise hquiet .stackOverflow hlimit

theorem signalsDisplay_iff {i : Instr} :
    signalsDisplay i = true ↔ (∃ x, i = .cls x) ∨ ∃ x y n, i = .drw x y n := by
  cases i <;> simp [signalsDisplay]

theorem waitingForKey_of_exec_of_signalsDisplay {i : Instr} {s t : State} (hi : signalsDisplay i = true)
    (hexec : exec i s = .next t) : t.waitingForKey = s.waitingForKey := by
  refine exec_same hexec (p := .waitingForKey) fun hp => ?_
  obtain ⟨x, rfl⟩ := waitingForKey_mem_writtenParts.mp hp
  cases hi

theorem inv_of_step {s t : State} (h : s.Inv) (hstep : step s = .next t) : t.Inv := by
  obtain ⟨hf, ⟨i, u, -, hexec, rfl⟩ | ⟨e, -, rfl⟩⟩ := step_cases hstep
  · have hquiet := s.quiet_beforeExec
    have hu : u.Inv := inv_of_exec (h.beforeExec hf) hf hquiet hexec
    by_cases huf : u.fault = none
    · rw [State.afterExec_of_no_fault huf]
      refine ((hu.renderSignal i huf fun hi => ?_).timerTick _).endCycle
      obtain ⟨-, hwarn, hwait⟩ := hquiet
      exact ⟨(warnUnhandled_of_exec hexec).trans hwarn,
        (waitingForKey_of_exec_of_signalsDisplay hi hexec).trans hwait⟩
    · rw [State.afterExec_of_fault huf]
      exact hu.endCycle
  · exact (((h.beforeExec hf).noteUnhandled hf s.quiet_beforeExec).timerTick _).endCycle

/-- Settles O26: every stage of the cycle keeps the invariant, and the events of a cycle exclude each other. -/
theorem everyStepKeepsTheMachineInvariant : Obligations.EveryStepKeepsTheMachineInvariant :=
  fun _ _ => inv_of_step

end Sys2Proof.Machine

/-! Whole cycles (10_state.md section 6, 30_encoding.md section 7, 60_exceptions.md). -/

namespace Sys2Proof.Machine

/-! The fetched word -/

/-- The high byte comes first (R52). -/
theorem State.toNat_fetch (s : State) :
    s.fetch.toNat = (s.memRead s.pc).toNat * 256 + (s.memRead (s.pc + 1)).toNat := by
  rw [State.fetch, BitVec.toNat_append, ← Nat.shiftLeft_add_eq_or_of_lt (BitVec.isLt _), Nat.shiftLeft_eq]

theorem tableWord_toNat (w : Word) : tableWord 16 w.toNat = w := by
  rw [tableWord, Nat.mod_eq_of_lt w.isLt, BitVec.ofNat_toNat, BitVec.setWidth_eq]

/-- Placing a word writes memory only, and the next fetch reads that word. -/
theorem State.withFetchWord_eq (s : State) (w : Word) : ∃ m, s.withFetchWord 16 w.toNat = s.setMem m ∧
    (s.setMem m).fetch = w := by
  rw [State.withFetchWord, tableWord_toNat]
  have hplaced : s.placeWord w = s.setMem (s.placeWord w).mem := s.memWriteList_eq s.pc (wordBytes w)
  exact ⟨_, hplaced, hplaced ▸ s.fetch_placeWord w⟩

/-- Settles O9: the fetched word is the high byte followed by the low byte, and the address after 0xFFF is 0x000. -/
theorem fetchIsBigEndianAndWraps : Obligations.FetchIsBigEndianAndWraps := by
  refine fun s => ⟨s.toNat_fetch, fun hpc => ?_⟩
  rw [s.toNat_fetch, hpc]
  rfl

/-- Settles O28: pc is 0x200 in every constructed machine, and the fetch reads the two bytes from pc on. -/
theorem resetEntryPointIs0x200 : Obligations.ResetEntryPointIs0x200 := by
  refine ⟨rfl, fun cfg rom s h => ?_⟩
  have hpc := pc_of_construct h
  refine ⟨hpc, ?_⟩
  rw [s.toNat_fetch, hpc]
  rfl

/-! A cycle that runs an instruction -/

theorem State.inputs_renderSignal (s : State) (i : Instr) : (s.renderSignal i).inputs = s.inputs :=
  (frame_renderSignal s i).2 .inputs (by decide)

theorem State.cycle_renderSignal (s : State) (i : Instr) : (s.renderSignal i).cycle = s.cycle :=
  (frame_renderSignal s i).2 .cycle (by decide)

theorem State.input_renderSignal (s : State) (i : Instr) : (s.renderSignal i).input = s.input := by
  simp only [State.input, s.inputs_renderSignal, s.cycle_renderSignal]

/-- Settles O7: the state before the handler is that after stages 1 to 3, and `afterExec` is the stages after it. -/
theorem stepRunsTheDecodedInstruction : Obligations.StepRunsTheDecodedInstruction := by
  intro s i hf hd
  obtain ⟨t, hexec⟩ := exists_next_exec i s.beforeExec
  refine ⟨s.beforeExec, t, hexec, step_of_exec hf hd hexec, rfl, rfl, rfl, rfl, rfl, rfl,
    (frame_beforeExec s).mono (by simp) (by simp), fun hfault => ?faults, fun hnone => ⟨_, rfl, ?completes⟩⟩
  case faults => exact State.afterExec_of_fault hfault i
  case completes =>
    rw [State.afterExec_of_no_fault hnone, State.tick, State.input_renderSignal, State.endCycle,
      ← t.inputs_renderSignal i, ← t.cycle_renderSignal i]
    rfl

/-- Settles O8: the fetch reads the placed word back, and the word decodes to its instruction. -/
theorem placedInstructionIsTheOneRun : Obligations.PlacedInstructionIsTheOneRun := by
  intro s i hf hwf
  obtain ⟨m, hplaced, hfetch⟩ := s.withFetchWord_eq (encode i)
  obtain ⟨t, hexec⟩ := exists_next_exec i (s.setMem m).beforeExec
  rw [hplaced]
  exact ⟨t, hexec, step_of_exec hf (hfetch.symm ▸ decodeWord_encode hwf) hexec⟩

/-! A cycle's frame -/

/-- What a frame lists without need can be left out. -/
theorem Frame.drop {R : List RegIdx} {P : List Element} {s t : State} {p : Element} (h : Frame R (p :: P) s t)
    (hp : p.Same s t) : Frame R P s t := by
  obtain ⟨hregs, hparts⟩ := h
  refine ⟨hregs, fun q hq => ?_⟩
  by_cases hqp : q = p
  · rwa [hqp]
  · exact hparts q (by simp [hqp, hq])

/-- A cycle whose handler sets pc back to the fetch address, and waits at most, is one that only samples and ticks. -/
theorem frame_cycle_of_pc_eq {s u : State} (i : Instr) (h : Frame [] [.pc, .waitingForKey] s.beforeExec u)
    (hpc : u.pc = s.pc) :
    Frame [] [.keypad, .lastKey, .displayChanged, .warnUnhandled, .waitingForKey, .dt, .st, .acc, .inputs, .cycle]
      s (u.afterExec i) := by
  have hafter := frame_afterExec u i
  have hsame : (u.afterExec i).pc = u.pc := hafter.2 .pc (by decide)
  exact ((((frame_beforeExec s).trans h).trans hafter).mono (by simp) (by simp)).drop (p := .pc) (hsame.trans hpc)

theorem decodeWord_of_self_jump {s : State} (hword : s.fetch.toNat = 0x1000 + s.pc.toNat) :
    decodeWord s.cfg.op0Decode s.fetch = .ok (.jp s.pc) := by
  have hfetch : s.fetch = encode (.jp s.pc) :=
    BitVec.eq_of_toNat_eq (hword.trans (toNat_wordNnn 0x1 s.pc).symm)
  rw [hfetch]
  exact decodeWord_encode rfl

/-- Settles O15: the jump sets pc back to the fetch address, and the stages around it only sample and tick. -/
theorem selfJumpIsAFixedPoint : Obligations.SelfJumpIsAFixedPoint := fun s hf hword =>
  ⟨_, step_of_exec hf (decodeWord_of_self_jump hword) (exec_jp s.pc s.beforeExec),
    frame_cycle_of_pc_eq _ ((frame_setPc _ s.pc).mono (by simp) (by simp)) rfl⟩

/-- Settles O51: without an edge LD Vx, K sets pc back to the fetch address, and then the timers tick. -/
theorem waitingCycleOnlyTicks : Obligations.WaitingCycleOnlyTicks := by
  intro x s hf hd hedge
  have hpc : s.beforeExec.pc - 2 = s.pc := BitVec.add_sub_cancel s.pc 2
  obtain ⟨hdt, hst, hacc⟩ := State.timers_afterExec
    (u := (s.beforeExec.setPc (s.beforeExec.pc - 2)).setWaiting true) hf (.ldK x)
  refine ⟨_, step_of_exec hf hd (exec_ldK_of_no_edge x hedge), ?_, hdt, hst, hacc,
    frame_cycle_of_pc_eq _ (frame_rewindAndWait _) hpc⟩
  exact (frame_afterExec _ (.ldK x)).2 .waitingForKey (by decide)

/-- Settles O12: the cycle counts, warns and ticks after stages 1 to 3, and does no more. -/
theorem unhandledWordIsACountedNoOp : Obligations.UnhandledWordIsACountedNoOp := by
  rintro s hf ⟨e, hd⟩
  exact ⟨_, step_of_unhandled hf hd, rfl, rfl, rfl, rfl, rfl, rfl, rfl, rfl, rfl, rfl,
    ((frame_beforeExec s).trans (frame_unhandledCycle _)).mono (by simp) (by simp)⟩

/-- Settles O25: the access table gives the configuration to no handler, and no stage around it writes it. -/
theorem noCycleChangesTheConfiguration : Obligations.NoCycleChangesTheConfiguration := by
  intro s t hstep
  obtain ⟨-, ⟨i, u, -, hexec, rfl⟩ | ⟨e, -, rfl⟩⟩ := step_cases hstep
  · have hafter : (u.afterExec i).cfg = u.cfg := (frame_afterExec u i).2 .cfg (by decide)
    exact hafter.trans (cfg_of_exec (s := s.beforeExec) hexec)
  · rfl

/-! A cycle that faults -/

/-- A cycle that ends with a fault is stages 1 to 3 and the record of the fetch address (R86, R223). -/
theorem eq_raise_of_step_fault {s t : State} {r : FaultRecord} (hstep : step s = .next t)
    (hr : t.fault = some r) : ∃ k, r = ⟨k, s.pc⟩ ∧ t = (s.beforeExec.raise k).endCycle := by
  have hraise {i : Instr} {k : FaultKind} (h : ((s.beforeExec.raise k).afterExec i).fault = some r) :
      r = ⟨k, s.pc⟩ ∧ (s.beforeExec.raise k).afterExec i = (s.beforeExec.raise k).endCycle := by
    cases h
    exact ⟨congrArg _ (BitVec.add_sub_cancel s.pc 2), rfl⟩
  obtain ⟨hf, ⟨i, u, -, hexec, rfl⟩ | ⟨e, -, rfl⟩⟩ := step_cases hstep
  · obtain hkept | ⟨-, -, rfl⟩ | ⟨-, -, rfl⟩ := fault_of_exec hexec
    · rw [State.fault_afterExec, hkept] at hr
      cases hf.symm.trans hr
    · exact ⟨.stackUnderflow, hraise hr⟩
    · exact ⟨.stackOverflow, hraise hr⟩
  · rw [State.fault_unhandledCycle] at hr
    cases hf.symm.trans hr

/-- Settles O24: after stages 1 to 3 such a cycle only sets the record, and the record's address is the old pc. -/
theorem faultingCycleChangesNothingElse : Obligations.FaultingCycleChangesNothingElse := by
  intro s t r hstep hr
  obtain ⟨k, rfl, rfl⟩ := eq_raise_of_step_fault hstep hr
  exact ⟨rfl, rfl, rfl, rfl, rfl,
    (((frame_beforeExec s).trans (frame_raise _ k)).trans (frame_endCycle _)).mono (by simp) (by simp)⟩

/-! The display signal -/

theorem State.displayChanged_renderSignal_iff (s : State) (i : Instr) :
    (s.renderSignal i).displayChanged = true ↔ signalsDisplay i = true ∨ s.displayChanged = true := by
  rw [State.renderSignal]
  split <;> simp [*]

theorem displayChanged_afterExec_of_exec {i : Instr} {s t : State} (hf : s.fault = none)
    (hquiet : s.displayChanged = false) (hexec : exec i s = .next t) :
    (t.afterExec i).displayChanged = true ↔ signalsDisplay i = true := by
  have hdisplay := (displayChanged_of_exec hexec).trans hquiet
  by_cases hfault : t.fault = none
  · rw [State.afterExec_of_no_fault hfault]
    refine (t.displayChanged_renderSignal_iff i).trans ?_
    rw [hdisplay, or_iff_left Bool.false_ne_true]
  · rw [State.afterExec_of_fault hfault, State.endCycle_displayChanged, hdisplay]
    obtain hkept | ⟨⟨x, rfl⟩, -⟩ | ⟨⟨nnn, rfl⟩, -⟩ := fault_of_exec hexec
    · exact absurd (hkept.trans hf) hfault
    · exact Iff.rfl
    · exact Iff.rfl

/-- Settles O14: only stage 6 sets the output, for CLS and DRW, and no cycle that faults ran one of them. -/
theorem displayChangedMarksDisplayInstructions : Obligations.DisplayChangedMarksDisplayInstructions := by
  intro s t hstep
  obtain ⟨hf, ⟨i, u, hd, hexec, rfl⟩ | ⟨e, hd, rfl⟩⟩ := step_cases hstep
  · simp only [hd, Except.ok.injEq]
    exact (displayChanged_afterExec_of_exec (s := s.beforeExec) hf rfl hexec).trans signalsDisplay_iff
  · simp only [hd, reduceCtorEq, exists_false, or_false, iff_false]
    exact Bool.false_ne_true

/-! Construction -/

theorem State.Inv.memWriteList {s : State} (h : s.Inv) (a : Addr) (bs : List Byte) :
    (s.memWriteList a bs).Inv := by
  have hwf := s.wf_memWriteList a bs h.memWf
  rw [State.memWriteList_eq] at hwf ⊢
  exact { h with memWf := hwf }

theorem inv_of_construct {cfg : Config} {rom : List Byte} {s : State} (h : construct cfg rom = .ok s) : s.Inv := by
  obtain ⟨hfont, hlimit, -, rfl⟩ := construct_eq_ok_iff.mp h
  refine State.Inv.memWriteList ?_ _ _
  exact {
    cfgValid := by simp [Config.valid, hfont, hlimit]
    memWf := rfl
    accBelow := Nat.zero_lt_succ 999
    stackDepth := fun l _ => Nat.zero_le l
    faultCause := nofun
    oneEvent := ⟨fun hne => absurd rfl hne, nofun, nofun⟩ }

/-- Settles O27: the reset state is the machine built from the default configuration and the empty image. -/
theorem resetMeetsTheMachineInvariant : Obligations.ResetMeetsTheMachineInvariant :=
  ⟨inv_of_construct (cfg := Config.default) (rom := []) rfl, fun _ _ _ h => inv_of_construct h⟩

/-- Settles O30: the image is written to memory only, over the elements of the reset state. -/
theorem constructedMachineIsZeroed : Obligations.ConstructedMachineIsZeroed := by
  intro cfg rom s h
  obtain ⟨-, -, -, rfl⟩ := construct_eq_ok_iff.mp h
  rw [State.memWriteList_eq]
  refine ⟨fun r => ?regs, rfl, rfl, rfl, rfl, Display.pixel_clear, fun k => ?keys, rfl, rfl, rfl, rfl, rfl, rfl, rfl,
    rfl⟩
  case regs => simp [State.v, State.reset]
  case keys => simp [State.keyDown, State.reset]

/-- Settles O31: the three checks of `construct` are its only refusals. -/
theorem constructionRefusesExactlyBadInputs : Obligations.ConstructionRefusesExactlyBadInputs := by
  intro cfg rom
  simp only [construct_eq_ok_iff, exists_and_left, exists_eq, and_true]

end Sys2Proof.Machine

/-! The opcode map and the unhandled words (30_encoding.md sections 4 and 5). -/

namespace Sys2Proof

/-! The unhandled words -/

theorem toNat_decodeFields_n (w : Word) : (decodeFields w).n.toNat = w.toNat % 16 := by simp [decodeFields]

theorem toNat_decodeFields_kk (w : Word) : (decodeFields w).kk.toNat = w.toNat % 256 := by simp [decodeFields]

/-- The second level of ops 5 and 9. -/
theorem exists_error_iff_toNat_ne_zero {n : BitVec 4} {i : Instr} {err : DecodeError} :
    (∃ e, (if n = 0x0 then Except.ok i else .error err) = .error e) ↔ n.toNat ≠ 0 := by
  split_ifs with hn <;> simp_all [← BitVec.toNat_inj]

theorem exists_dispatch8_error_iff {f : Fields} :
    (∃ e, dispatch8 f = .error e) ↔ f.n.toNat ∈ [0x8, 0x9, 0xA, 0xB, 0xC, 0xD, 0xF] := by
  have hn := f.n.isLt
  unfold dispatch8
  split
  case h_10 => grind
  all_goals simp [*]

theorem exists_dispatchE_error_iff {f : Fields} :
    (∃ e, dispatchE f = .error e) ↔ f.kk.toNat ∉ [0x9E, 0xA1] := by
  unfold dispatchE
  split_ifs <;> simp_all [← BitVec.toNat_inj]

theorem exists_dispatchF_error_iff {f : Fields} :
    (∃ e, dispatchF f = .error e) ↔ f.kk.toNat ∉ [0x07, 0x0A, 0x15, 0x18, 0x1E, 0x29, 0x33, 0x55, 0x65] := by
  unfold dispatchF
  split_ifs <;> simp_all [← BitVec.toNat_inj]

/-- Settles O4: each op with a second level refuses the words of its row of the table, every other op none. -/
theorem unhandledWordsAreExactlyTheTable : Obligations.UnhandledWordsAreExactlyTheTable := by
  intro c w
  rw [← decodeFields_op, ← toNat_decodeFields_n, ← toNat_decodeFields_kk, decodeWord]
  have hlt := (decodeFields w).op.isLt
  unfold dispatch
  split
  case h_6 hop | h_10 hop => rw [exists_error_iff_toNat_ne_zero]; simp [hop]
  case h_9 hop => rw [exists_dispatch8_error_iff]; simp [hop]
  case h_15 hop => rw [exists_dispatchE_error_iff]; simp [hop]
  case h_16 =>
    have hop : (decodeFields w).op.val = 0xF := by grind
    rw [exists_dispatchF_error_iff]
    simp [hop]
  case h_1 hop | h_2 hop | h_3 hop | h_4 hop | h_5 hop | h_7 hop | h_8 hop | h_11 hop | h_12 hop | h_13 hop
    | h_14 hop => simp [hop]

/-! The word that a row selects -/

/-- A field that the row's mask covers is the pattern's. -/
theorem OpcodeRow.extractLsb'_of_selects {r : OpcodeRow} {w : Word} (hw : r.selects w = true) {lo len : Nat}
    (hmask : r.mask.extractLsb' lo len = BitVec.allOnes len) :
    w.extractLsb' lo len = r.pattern.extractLsb' lo len := by
  obtain hand : w &&& r.mask = r.pattern := beq_iff_eq.mp hw
  rw [← hand, BitVec.extractLsb'_and, hmask, BitVec.and_allOnes]

/-- The row's handler on the fields of a word that it selects is what the word decodes to. -/
def OpcodeRow.Sound (c : Op0Decode) (r : OpcodeRow) : Prop :=
  ∀ w, r.selects w = true → decodeWord c w = .ok (r.build (decodeFields w))

theorem OpcodeRow.Sound.of_encode {c : Op0Decode} {r : OpcodeRow} (hwf : ∀ f, (r.build f).wellFormed c = true)
    (hword : ∀ w, r.selects w = true → encode (r.build (decodeFields w)) = w) : r.Sound c := by
  intro w hw
  have hdecode := decodeWord_encode (hwf (decodeFields w))
  rwa [hword w hw] at hdecode

section
variable {c : Op0Decode} {r : OpcodeRow} (hwf : ∀ f, (r.build f).wellFormed c = true)
  (hop : r.mask.extractLsb' 12 4 = BitVec.allOnes 4)
include hwf hop

theorem OpcodeRow.Sound.of_nnn (he : ∀ f, encode (r.build f) = wordNnn (r.pattern.extractLsb' 12 4) f.nnn) :
    r.Sound c :=
  of_encode hwf fun w hw => by rw [he, ← OpcodeRow.extractLsb'_of_selects hw hop, wordNnn_fields]

theorem OpcodeRow.Sound.of_xkk (he : ∀ f, encode (r.build f) = wordXkk (r.pattern.extractLsb' 12 4) f.x f.kk) :
    r.Sound c :=
  of_encode hwf fun w hw => by rw [he, ← OpcodeRow.extractLsb'_of_selects hw hop, wordXkk_fields]

theorem OpcodeRow.Sound.of_xyn
    (he : ∀ f, encode (r.build f) = wordXyn (r.pattern.extractLsb' 12 4) f.x f.y f.n) : r.Sound c :=
  of_encode hwf fun w hw => by rw [he, ← OpcodeRow.extractLsb'_of_selects hw hop, wordXyn_fields]

theorem OpcodeRow.Sound.of_x (hkk : r.mask.extractLsb' 0 8 = BitVec.allOnes 8)
    (he : ∀ f, encode (r.build f) = wordXkk (r.pattern.extractLsb' 12 4) f.x (r.pattern.extractLsb' 0 8)) :
    r.Sound c :=
  of_encode hwf fun w hw => by
    rw [he, ← OpcodeRow.extractLsb'_of_selects hw hop, ← OpcodeRow.extractLsb'_of_selects hw hkk]
    exact wordXkk_fields w

theorem OpcodeRow.Sound.of_xy (hn : r.mask.extractLsb' 0 4 = BitVec.allOnes 4)
    (he : ∀ f, encode (r.build f) = wordXyn (r.pattern.extractLsb' 12 4) f.x f.y (r.pattern.extractLsb' 0 4)) :
    r.Sound c :=
  of_encode hwf fun w hw => by
    rw [he, ← OpcodeRow.extractLsb'_of_selects hw hop, ← OpcodeRow.extractLsb'_of_selects hw hn]
    exact wordXyn_fields w

end

theorem sound_of_mem_opcodeRowsOne (c : Op0Decode) : ∀ r ∈ opcodeRowsOne, r.Sound c := by
  simp only [opcodeRowsOne, List.forall_mem_cons]
  exact ⟨
    .of_nnn (fun _ => rfl) rfl fun _ => rfl,
    .of_nnn (fun _ => rfl) rfl fun _ => rfl,
    .of_xkk (fun _ => rfl) rfl fun _ => rfl,
    .of_xkk (fun _ => rfl) rfl fun _ => rfl,
    .of_xy (fun _ => rfl) rfl rfl fun _ => rfl,
    .of_xkk (fun _ => rfl) rfl fun _ => rfl,
    .of_xkk (fun _ => rfl) rfl fun _ => rfl,
    .of_xy (fun _ => rfl) rfl rfl fun _ => rfl,
    .of_nnn (fun _ => rfl) rfl fun _ => rfl,
    .of_nnn (fun _ => rfl) rfl fun _ => rfl,
    .of_xkk (fun _ => rfl) rfl fun _ => rfl,
    .of_xyn (fun _ => rfl) rfl fun _ => rfl,
    nofun⟩

theorem sound_of_mem_opcodeRows8 (c : Op0Decode) : ∀ r ∈ opcodeRows8, r.Sound c := by
  simp only [opcodeRows8, List.forall_mem_cons]
  and_intros
  on_goal 10 => nofun
  all_goals exact OpcodeRow.Sound.of_xy (fun _ => rfl) rfl rfl fun _ => rfl

theorem sound_of_mem_opcodeRowsEF (c : Op0Decode) : ∀ r ∈ opcodeRowsEF, r.Sound c := by
  simp only [opcodeRowsEF, List.forall_mem_cons]
  and_intros
  on_goal 12 => nofun
  all_goals exact OpcodeRow.Sound.of_x (fun _ => rfl) rfl rfl fun _ => rfl

/-! Op 0, where the order of the rows counts -/

section
variable {w : Word} (hop : (decodeFields w).op.val = 0x0)
include hop

theorem selects_kk_iff {kk : Byte} {build : Fields → Instr} :
    (⟨0xF0FF, wordXkk 0x0 0 kk, build⟩ : OpcodeRow).selects w = true ↔ (decodeFields w).kk = kk := by
  constructor
  · intro hw
    have hmask : (0xF0FF : Word).extractLsb' 0 8 = BitVec.allOnes 8 := rfl
    exact (OpcodeRow.extractLsb'_of_selects hw hmask).trans (fields_wordXkk_kk 0x0 0 kk)
  · intro hkk
    rw [OpcodeRow.selects, ← wordXkk_of_op_of_kk (op := 0x0) hop hkk, wordXkk_and_kk, beq_self_eq_true]

theorem selects_nnn_iff {nnn : Addr} {build : Fields → Instr} :
    (⟨0xFFFF, wordNnn 0x0 nnn, build⟩ : OpcodeRow).selects w = true ↔ (decodeFields w).nnn = nnn := by
  constructor
  · intro hw
    have hmask : (0xFFFF : Word).extractLsb' 0 12 = BitVec.allOnes 12 := rfl
    exact (OpcodeRow.extractLsb'_of_selects hw hmask).trans (fields_wordNnn_nnn 0x0 nnn)
  · rintro rfl
    rw [OpcodeRow.selects, wordNnn_of_op (op := 0x0) hop]
    exact beq_iff_eq.mpr BitVec.and_allOnes

theorem selects_sys {build : Fields → Instr} : (⟨0xF000, 0x0000, build⟩ : OpcodeRow).selects w = true := by
  rw [OpcodeRow.selects, ← wordNnn_of_op (op := 0x0) hop, wordNnn_and_op]
  rfl

end

/-- `find?` on three entries of which the last is selected is a two-level choice, as the dispatch of op 0 is. -/
theorem find?_three {α : Type} {p : α → Bool} {a b d : α} {P Q : Prop} [Decidable P] [Decidable Q]
    (ha : p a = true ↔ P) (hb : p b = true ↔ Q) (hd : p d = true) :
    [a, b, d].find? p = some (if P then a else if Q then b else d) := by
  split_ifs with hP hQ
  · exact List.find?_cons_of_pos (ha.mpr hP)
  · rw [List.find?_cons_of_neg fun h => hP (ha.mp h), List.find?_cons_of_pos (hb.mpr hQ)]
  · rw [List.find?_cons_of_neg fun h => hP (ha.mp h), List.find?_cons_of_neg fun h => hQ (hb.mp h),
      List.find?_cons_of_pos hd]

theorem find?_opcodeRows0 (c : Op0Decode) {w : Word} (hop : (decodeFields w).op.val = 0x0) :
    ((opcodeRows0 c).find? (·.selects w)).map (fun r => r.build (decodeFields w)) =
      some (dispatch0 c (decodeFields w)) := by
  cases c with
  | kkOnly =>
    have hfind : (opcodeRows0 .kkOnly).find? (fun r => r.selects w) = some _ :=
      find?_three (selects_kk_iff hop (kk := 0xE0)) (selects_kk_iff hop (kk := 0xEE)) (selects_sys hop)
    rw [hfind, dispatch0]
    split_ifs <;> rfl
  | fullWord =>
    have hfind : (opcodeRows0 .fullWord).find? (fun r => r.selects w) = some _ :=
      find?_three (selects_nnn_iff hop (nnn := 0x0E0)) (selects_nnn_iff hop (nnn := 0x0EE)) (selects_sys hop)
    rw [hfind, dispatch0]
    split_ifs <;> rfl

theorem op_of_selects_opcodeRows0 {c : Op0Decode} {w : Word} {r : OpcodeRow} (hr : r ∈ opcodeRows0 c)
    (hw : r.selects w = true) : nibble w 12 = 0 := by
  have hfields : r.mask.extractLsb' 12 4 = BitVec.allOnes 4 ∧ r.pattern.extractLsb' 12 4 = 0 := by
    simp only [opcodeRows0, List.mem_cons, List.not_mem_nil, or_false] at hr
    obtain rfl | rfl | rfl := hr <;> cases c <;> exact ⟨rfl, rfl⟩
  obtain ⟨hmask, hpattern⟩ := hfields
  rw [nibble, OpcodeRow.extractLsb'_of_selects hw hmask, hpattern]
  rfl

/-! The whole map -/

/-- The rows outside op 0. -/
def laterRows : List OpcodeRow := opcodeRowsOne ++ opcodeRows8 ++ opcodeRowsEF

theorem opcodeMap_eq (c : Op0Decode) : opcodeMap c = opcodeRows0 c ++ laterRows := by
  simp only [opcodeMap, laterRows, List.append_assoc]

theorem sound_of_mem_laterRows {c : Op0Decode} {r : OpcodeRow} (hr : r ∈ laterRows) : r.Sound c := by
  simp only [laterRows, List.mem_append] at hr
  obtain (hr | hr) | hr := hr
  · exact sound_of_mem_opcodeRowsOne c r hr
  · exact sound_of_mem_opcodeRows8 c r hr
  · exact sound_of_mem_opcodeRowsEF c r hr

theorem laterRows_pairwise : laterRows.Pairwise fun r r' => r.pattern &&& r'.mask ≠ r'.pattern &&& r.mask := by
  decide

/-- Rows whose patterns differ on a bit of both masks select no word in common. -/
theorem not_selects_both {r r' : OpcodeRow} {w : Word}
    (hne : r.pattern &&& r'.mask ≠ r'.pattern &&& r.mask) :
    ¬ (r.selects w = true ∧ r'.selects w = true) := by
  rintro ⟨hw, hw'⟩
  obtain hand : w &&& r.mask = r.pattern := beq_iff_eq.mp hw
  obtain hand' : w &&& r'.mask = r'.pattern := beq_iff_eq.mp hw'
  rw [← hand, ← hand', BitVec.and_assoc, BitVec.and_assoc, BitVec.and_comm r.mask] at hne
  exact hne rfl

theorem length_filter_le_one {α : Type} {p : α → Bool} {l : List α}
    (h : l.Pairwise fun a b => ¬ (p a = true ∧ p b = true)) : (l.filter p).length ≤ 1 := by
  have hpair := h.filter p
  have hmem : ∀ a ∈ l.filter p, p a = true := fun a ha => (List.mem_filter.mp ha).2
  match hl : l.filter p with
  | [] | [_] => simp
  | a :: b :: rest =>
    rw [hl] at hpair hmem
    exact absurd ⟨hmem a (by simp), hmem b (by simp)⟩ ((List.pairwise_cons.mp hpair).1 b (by simp))

/-- Every instruction is in the opcode map. -/
theorem rowStatement : ∀ i, Laws.Row.Statement i
  | .cls x => Laws.Row.cls x
  | .ret x => Laws.Row.ret x
  | .sys nnn => Laws.Row.sys nnn
  | .jp nnn => Laws.Row.jp nnn
  | .call nnn => Laws.Row.call nnn
  | .seImm x kk => Laws.Row.seImm x kk
  | .sneImm x kk => Laws.Row.sneImm x kk
  | .seReg x y => Laws.Row.seReg x y
  | .ldImm x kk => Laws.Row.ldImm x kk
  | .addImm x kk => Laws.Row.addImm x kk
  | .ldReg x y => Laws.Row.ldReg x y
  | .orReg x y => Laws.Row.orReg x y
  | .andReg x y => Laws.Row.andReg x y
  | .xorReg x y => Laws.Row.xorReg x y
  | .addReg x y => Laws.Row.addReg x y
  | .sub x y => Laws.Row.sub x y
  | .shr x y => Laws.Row.shr x y
  | .subn x y => Laws.Row.subn x y
  | .shl x y => Laws.Row.shl x y
  | .sneReg x y => Laws.Row.sneReg x y
  | .ldI nnn => Laws.Row.ldI nnn
  | .jpV0 nnn => Laws.Row.jpV0 nnn
  | .rnd x kk => Laws.Row.rnd x kk
  | .drw x y n => Laws.Row.drw x y n
  | .skp x => Laws.Row.skp x
  | .sknp x => Laws.Row.sknp x
  | .ldFromDt x => Laws.Row.ldFromDt x
  | .ldK x => Laws.Row.ldK x
  | .ldDt x => Laws.Row.ldDt x
  | .ldSt x => Laws.Row.ldSt x
  | .addI x => Laws.Row.addI x
  | .ldF x => Laws.Row.ldF x
  | .ldB x => Laws.Row.ldB x
  | .storeRegs x => Laws.Row.storeRegs x
  | .loadRegs x => Laws.Row.loadRegs x

theorem exists_selects_of_decodeWord {c : Op0Decode} {w : Word} {i : Instr} (h : decodeWord c w = .ok i) :
    ∃ r ∈ opcodeMap c, r.selects w = true := by
  obtain ⟨hword, hwf⟩ := spells_of_decodeWord h
  obtain ⟨r, hr, hw, -⟩ := rowStatement i c hwf
  exact ⟨r, hr, hword ▸ hw⟩

theorem find?_opcodeMap (c : Op0Decode) (w : Word) :
    (decodeWord c w).toOption = ((opcodeMap c).find? (·.selects w)).map (fun r => r.build (decodeFields w)) := by
  by_cases hop : (decodeFields w).op.val = 0x0
  · obtain ⟨r, hfind, hbuild⟩ := Option.map_eq_some_iff.mp (find?_opcodeRows0 c hop)
    rw [decodeWord_of_op_eq_zero c hop, opcodeMap_eq, List.find?_append, hfind, ← hbuild]
    rfl
  cases hfind : (opcodeMap c).find? (·.selects w) with
  | none =>
    cases hdecode : decodeWord c w with
    | error e => rfl
    | ok i =>
      obtain ⟨r, hr, hw⟩ := exists_selects_of_decodeWord hdecode
      exact absurd hw (List.find?_eq_none.mp hfind r hr)
  | some r =>
    have hw : r.selects w = true := List.find?_some (p := fun r : OpcodeRow => r.selects w) hfind
    have hr := List.mem_of_find?_eq_some hfind
    rw [opcodeMap_eq, List.mem_append] at hr
    obtain hr | hr := hr
    · exact absurd (congrArg Fin.val (op_of_selects_opcodeRows0 hr hw)) hop
    · rw [sound_of_mem_laterRows hr w hw]
      rfl

theorem length_filter_opcodeMap_le_one (c : Op0Decode) {w : Word} (hop : nibble w 12 ≠ 0) :
    ((opcodeMap c).filter (·.selects w)).length ≤ 1 := by
  have hnone : (opcodeRows0 c).filter (·.selects w) = [] :=
    List.filter_eq_nil_iff.mpr fun r hr hw => hop (op_of_selects_opcodeRows0 hr hw)
  rw [opcodeMap_eq, List.filter_append, hnone, List.nil_append]
  exact length_filter_le_one (laterRows_pairwise.imp not_selects_both)

/-- Settles O3: a selected row outside op 0 builds what its word decodes to, some row selects every word that decodes,
and in op 0 the order of the three rows is the order of the dispatch's tests. -/
theorem dispatchFollowsTheOpcodeMap : Obligations.DispatchFollowsTheOpcodeMap :=
  fun c w => ⟨find?_opcodeMap c w, length_filter_opcodeMap_le_one c⟩

/-- Settles O6: the words are closed, so the decoder runs on each of them. -/
theorem sampleWordsDecode : Obligations.SampleWordsDecode := by
  unfold Obligations.SampleWordsDecode
  decide

end Sys2Proof

/-! RET and CALL (40_control_flow.md section 2, 60_exceptions.md section 1). -/

namespace Sys2Proof.Machine

theorem exec_ret_of_stack_nil (x : RegIdx) {s : State} (hstack : s.stack = []) :
    exec (.ret x) s = .next (s.raise .stackUnderflow) := by
  simp only [exec, execRet, hstack]

theorem exec_ret_of_stack_cons (x : RegIdx) {s : State} {a : Addr} {rest : List Addr}
    (hstack : s.stack = a :: rest) : exec (.ret x) s = .next ((s.setStack rest).setPc a) := by
  simp only [exec, execRet, hstack]

theorem exec_call_at_limit (nnn : Addr) {s : State} (hlimit : s.cfg.stackLimit = some s.stack.length) :
    exec (.call nnn) s = .next (s.raise .stackOverflow) := by
  rw [exec, execCall, if_pos hlimit]

theorem exec_call_off_limit (nnn : Addr) {s : State} (hlimit : s.cfg.stackLimit ≠ some s.stack.length) :
    exec (.call nnn) s = .next ((s.push s.pc).setPc nnn) := by
  rw [exec, execCall, if_neg hlimit]

/-- Settles O33: RET is a write of stack and pc, or of the record alone. -/
theorem retPopsOrUnderflows : Obligations.RetPopsOrUnderflows := fun x s =>
  ⟨fun a rest hstack => ⟨_, exec_ret_of_stack_cons x hstack, rfl, rfl,
      ((frame_setStack s rest).trans (frame_setPc _ a)).mono (by simp) (by simp)⟩,
    fun hstack => ⟨_, exec_ret_of_stack_nil x hstack, rfl, frame_raise s _⟩⟩

/-- Settles O35: CALL is a write of stack and pc, or of the record alone. -/
theorem callPushesTheReturnAddress : Obligations.CallPushesTheReturnAddress := fun nnn s =>
  ⟨fun hlimit => ⟨_, exec_call_off_limit nnn hlimit, rfl, rfl,
      ((frame_setStack s _).trans (frame_setPc _ nnn)).mono (by simp) (by simp)⟩,
    fun hlimit => ⟨_, exec_call_at_limit nnn hlimit, rfl, frame_raise s _⟩⟩

/-- Settles O36: a CALL that did not fault pushed its return address, which is what RET pops. -/
theorem retReturnsToTheWordAfterCall : Obligations.RetReturnsToTheWordAfterCall := by
  intro nnn x s t b hnone hexec hfault hstack
  obtain ⟨-, rfl⟩ | ⟨-, rfl⟩ := exec_call_cases hexec
  · cases hfault
  · exact ⟨_, exec_ret_of_stack_cons x hstack, rfl, rfl⟩

/-- Settles O23: from no fault, a StackOverflow can only be CALL's, and CALL at the limit raises it. -/
theorem stackOverflowOnlyByCallAtTheLimit : Obligations.StackOverflowOnlyByCallAtTheLimit := by
  intro i s t hnone hexec
  constructor
  · rintro ⟨a, hfault⟩
    obtain hkept | ⟨-, -, rfl⟩ | ⟨hcall, hlimit, -⟩ := fault_of_exec hexec
    · cases hnone.symm.trans (hkept.symm.trans hfault)
    · cases hfault
    · exact ⟨hcall, hlimit⟩
  · rintro ⟨⟨nnn, rfl⟩, hlimit⟩
    cases (exec_call_at_limit nnn hlimit).symm.trans hexec
    exact ⟨s.fetchAddr, rfl⟩

end Sys2Proof.Machine

/-! SUBN, RND, LD I, ADD I and SYS (40_control_flow.md, 41_load_alu.md, 44_index_memory.md). -/

namespace Sys2Proof.Machine

theorem exec_sys (nnn : Addr) (s : State) : exec (.sys nnn) s = .next s := rfl

theorem exec_subn (x y : RegIdx) (s : State) :
    exec (.subn x y) s = .next (s.setResultFlag x (s.v y - s.v x) (notBorrowFlag (s.v y) (s.v x))) := rfl

theorem exec_rnd (x : RegIdx) (kk : Byte) (s : State) :
    exec (.rnd x kk) s = .next (s.setV x (s.input.rnd &&& kk)) := rfl

theorem exec_ldI (nnn : Addr) (s : State) : exec (.ldI nnn) s = .next (s.setI nnn) := rfl

theorem exec_addI_of_quirk (x : RegIdx) {s : State} (hquirk : s.cfg.addIndexSetsOverflowFlag = true) :
    exec (.addI x) s =
      .next ((s.setI (s.i + zextAddr (s.v x))).setFlag (indexOverflowFlag s.i (s.v x))) := by
  rw [exec, execAddI, if_pos hquirk]

theorem exec_addI_of_no_quirk (x : RegIdx) {s : State} (hquirk : s.cfg.addIndexSetsOverflowFlag = false) :
    exec (.addI x) s = .next (s.setI (s.i + zextAddr (s.v x))) := by
  rw [exec, execAddI, if_neg (by simp [hquirk])]

/-- The byte is zero-extended to an address, so only the sum can wrap. -/
theorem toNat_add_zextAddr (a : Addr) (b : Byte) : (a + zextAddr b).toNat = (a.toNat + b.toNat) % 4096 := by
  have hb : (zextAddr b).toNat = b.toNat := BitVec.toNat_setWidth_of_le (by decide)
  rw [BitVec.toNat_add, hb]

/-- Settles O32: the meaning of SYS is the state it starts from. -/
theorem sysDoesNothing : Obligations.SysDoesNothing := fun nnn s => ⟨s, exec_sys nnn s, Frame.refl [] [] s⟩

/-- Settles O42: as SUB with the operands exchanged, the result and then the flag. -/
theorem subtractReversedWithFlag : Obligations.SubtractReversedWithFlag := by
  intro x y s
  refine ⟨_, exec_subn x y s, fun hx => ?difference, ?notBorrow, frame_setResultFlag s x _ _⟩
  case difference => rw [s.v_setResultFlag_result hx, intCast_toNat_sub]
  case notBorrow => exact (s.v_setResultFlag_flag x _ _).trans (b2v_decide _)

/-- Settles O44: one write of the random byte of the cycle under the mask. -/
theorem randomByteIsMasked : Obligations.RandomByteIsMasked := by
  intro x kk s
  refine ⟨_, exec_rnd x kk s, fun k _ => ?_, frame_setV s x _⟩
  rw [State.v_setV_self, BitVec.getLsbD_and]

/-- Settles O53: both are one write of I, and under the quirk a write of VF follows. -/
theorem indexLoadAndAdd : Obligations.IndexLoadAndAdd := by
  intro nnn x s
  refine ⟨⟨_, exec_ldI nnn s, rfl, frame_setI s nnn⟩, ?addI⟩
  have hsum := toNat_add_zextAddr s.i (s.v x)
  cases hquirk : s.cfg.addIndexSetsOverflowFlag with
  | false => exact ⟨_, exec_addI_of_no_quirk x hquirk, hsum, nofun, fun _ => frame_setI s _⟩
  | true =>
    exact ⟨_, exec_addI_of_quirk x hquirk, hsum,
      fun _ => ⟨(State.v_setV_self _ 15 _).trans (b2v_decide _), (frame_setI s _).trans (frame_setV _ 15 _)⟩,
      nofun⟩

end Sys2Proof.Machine

/-! The timers (60_exceptions.md section 3). -/

namespace Sys2Proof.Machine

theorem toNat_timerAfter (t : Byte) (ticks : Nat) : (timerAfter t ticks).toNat = t.toNat - ticks :=
  Nat.mod_eq_of_lt ((Nat.sub_le _ _).trans_lt t.isLt)

theorem timerAfter_timerAfter (t : Byte) (m n : Nat) : timerAfter (timerAfter t m) n = timerAfter t (m + n) := by
  apply BitVec.eq_of_toNat_eq
  simp only [toNat_timerAfter, Nat.sub_sub]

/-- The tick by the count of ticks and what is left of the elapsed time. -/
theorem State.timerTick_eq (s : State) (ms : Nat) : s.timerTick ms =
    { s with
      acc := (s.acc + 60 * ms) % 1000
      dt := timerAfter s.dt ((s.acc + 60 * ms) / 1000)
      st := timerAfter s.st ((s.acc + 60 * ms) / 1000) } := rfl

/-- Settles O17: the ticks are a quotient of the elapsed time, and of 1000 ms the quotient is 60. -/
theorem timersCountDownAndStopAtZero : Obligations.TimersCountDownAndStopAtZero := by
  intro s ms
  refine ⟨⟨toNat_timerAfter s.dt _, toNat_timerAfter s.st _⟩, ?_⟩
  rintro hacc rfl
  have hticks : (s.acc + 60 * 1000) / 1000 = 60 := by omega
  have hrest : (s.acc + 60 * 1000) % 1000 = s.acc := by omega
  exact ⟨hticks ▸ toNat_timerAfter s.dt _, hticks ▸ toNat_timerAfter s.st _, hrest⟩

/-- Settles O18: what the first tick leaves of its time is carried over, so quotient and rest of the sum add up. -/
theorem timerTickIsAdditiveInElapsedTime : Obligations.TimerTickIsAdditiveInElapsedTime := by
  intro s a b
  refine ⟨?_, Nat.mod_lt _ (by decide)⟩
  have hticks : (s.acc + 60 * a) / 1000 + ((s.acc + 60 * a) % 1000 + 60 * b) / 1000 =
      (s.acc + 60 * (a + b)) / 1000 := by omega
  have hrest : ((s.acc + 60 * a) % 1000 + 60 * b) % 1000 = (s.acc + 60 * (a + b)) % 1000 := by omega
  simp only [State.timerTick_eq, timerAfter_timerAfter, hticks, hrest]

end Sys2Proof.Machine

/-! The frame of every instruction (10_state.md section 3), and the inputs that it reads (section 6). -/

namespace Sys2Proof.Machine

/-! The registers an instruction may write -/

/-- Every instruction keeps the registers that the access table does not give it (R22, R37). -/
theorem v_of_exec {i : Instr} {s t : State} (h : exec i s = .next t) {r : RegIdx}
    (hr : r ∉ writtenRegs s.cfg i) : t.v r = s.v r := by
  cases i with
  | ret => exact (frame_execRet h).1 r hr
  | call => exact (frame_execCall h).1 r hr
  | ldK => exact (frame_execLdK h).1 r hr
  | seImm | sneImm | seReg | sneReg | skp | sknp => cases h; exact (frame_skipIf s _).1 r hr
  | ldImm x | addImm x | rnd x | ldFromDt x => cases h; exact (frame_setV s x _).1 r hr
  | addReg x | sub x | shr x | subn x | shl x => cases h; exact (frame_setResultFlag s x _ _).1 r hr
  | ldReg x y =>
    obtain rfl := Host.Outcome.next.inj ((exec_ldReg x y s).symm.trans h)
    rw [writtenRegs] at hr
    rw [State.clearFlagMove_setV]
    split_ifs at hr ⊢
    · exact (frame_setResultFlag s x _ _).1 r hr
    · exact (frame_setV s x _).1 r hr
  | orReg x | andReg x | xorReg x =>
    obtain rfl := Host.Outcome.next.inj h.symm
    rw [writtenRegs] at hr
    rw [State.clearFlagLogic_setV]
    split_ifs at hr ⊢
    · exact (frame_setV s x _).1 r hr
    · exact (frame_setResultFlag s x _ _).1 r hr
  | drw => cases h; exact (frame_setV _ 15 _).1 r hr
  | addI x =>
    cases h
    rw [writtenRegs] at hr
    split_ifs at hr ⊢
    · exact (frame_setV _ 15 _).1 r hr
    · rfl
  | storeRegs x => exact (frame_execStoreRegs h).1 r hr
  | loadRegs x =>
    obtain rfl := Host.Outcome.next.inj ((exec_loadRegs x s).symm.trans h)
    rw [State.setI_v, State.setRegs_v, State.getElem_loadedRegs, if_neg (by simpa [writtenRegs] using hr)]
  | ldB => cases h; exact (frame_memWriteList s _ _).1 r hr
  | cls | sys | jp | jpV0 | ldI | ldF | ldDt | ldSt => cases h; rfl

/-- Settles O21: the access table bounds the registers and the elements of every instruction. -/
theorem everyInstructionKeepsItsFrame : Obligations.EveryInstructionKeepsItsFrame :=
  fun _ _ _ h => ⟨fun _ hr => v_of_exec h hr, fun _ hp => exec_same h hp⟩

/-! The inputs of the cycle -/

theorem State.setInputs_skipIf (s : State) (l : List CycleInput) (c : Bool) :
    (s.setInputs l).skipIf c = (s.skipIf c).setInputs l := by cases c <;> rfl

theorem State.setInputs_clearFlagMove (s : State) (l : List CycleInput) :
    (s.setInputs l).clearFlagMove = s.clearFlagMove.setInputs l := by
  simp only [State.clearFlagMove, State.setInputs_cfg]
  cases s.cfg.vfNonarith <;> rfl

theorem State.setInputs_clearFlagLogic (s : State) (l : List CycleInput) :
    (s.setInputs l).clearFlagLogic = s.clearFlagLogic.setInputs l := by
  simp only [State.clearFlagLogic, State.setInputs_cfg]
  cases s.cfg.vfNonarith <;> rfl

theorem State.setInputs_memWriteList (s : State) (l : List CycleInput) (a : Addr) (bs : List Byte) :
    (s.setInputs l).memWriteList a bs = (s.memWriteList a bs).setInputs l := by
  induction bs generalizing s a with
  | nil => rfl
  | cons b bs ih => exact ih (s.memWrite a b) (a + 1)

/-- Replacing the coming inputs commutes with every handler but RND's. -/
theorem exec_setInputs {i : Instr} {s t : State} (l : List CycleInput) (hrnd : ∀ x kk, i ≠ .rnd x kk)
    (h : exec i s = .next t) : exec i (s.setInputs l) = .next (t.setInputs l) := by
  cases i with
  | rnd x kk => exact absurd rfl (hrnd x kk)
  | seImm | sneImm | seReg | sneReg | skp | sknp =>
    cases h
    exact congrArg _ (s.setInputs_skipIf l _)
  | ldReg => cases h; rw [← State.setInputs_clearFlagMove]; rfl
  | orReg | andReg | xorReg => cases h; rw [← State.setInputs_clearFlagLogic]; rfl
  | ldB => cases h; rw [← State.setInputs_memWriteList]; rfl
  | storeRegs x =>
    obtain rfl := Host.Outcome.next.inj ((exec_storeRegs x s).symm.trans h)
    rw [exec_storeRegs, s.setInputs_memWriteList l]
    rfl
  | ret x =>
    obtain ⟨hstack, rfl⟩ | ⟨a, rest, hstack, rfl⟩ := exec_ret_cases h
    · exact exec_ret_of_stack_nil x (s := s.setInputs l) hstack
    · exact exec_ret_of_stack_cons x (s := s.setInputs l) hstack
  | call nnn =>
    obtain ⟨hlimit, rfl⟩ | ⟨hlimit, rfl⟩ := exec_call_cases h
    · exact exec_call_at_limit nnn (s := s.setInputs l) hlimit
    · exact exec_call_off_limit nnn (s := s.setInputs l) hlimit
  | ldK x =>
    cases hedge : s.lastKey with
    | none =>
      cases (exec_ldK_of_no_edge x hedge).symm.trans h
      exact exec_ldK_of_no_edge x (s := s.setInputs l) hedge
    | some k =>
      cases (exec_ldK_of_edge x hedge).symm.trans h
      exact exec_ldK_of_edge x (s := s.setInputs l) hedge
  | addI x =>
    cases hquirk : s.cfg.addIndexSetsOverflowFlag with
    | false =>
      cases (exec_addI_of_no_quirk x hquirk).symm.trans h
      exact exec_addI_of_no_quirk x (s := s.setInputs l) hquirk
    | true =>
      cases (exec_addI_of_quirk x hquirk).symm.trans h
      exact exec_addI_of_quirk x (s := s.setInputs l) hquirk
  | cls | sys | jp | jpV0 | ldImm | addImm | addReg | sub | shr | subn | shl | ldI | drw | ldFromDt | ldDt
  | ldSt | ldF | loadRegs => cases h; rfl

/-- Settles O16: no operation of a handler other than RND reads the coming inputs, nor writes them. -/
theorem noHandlerButRndReadsTheCycleInputs : Obligations.NoHandlerButRndReadsTheCycleInputs :=
  fun _ _ _ l hrnd h => exec_setInputs l hrnd h

end Sys2Proof.Machine

/-! Drawing (42_display.md). -/

namespace Sys2Proof.Machine

theorem exec_drw (x y : RegIdx) (n : BitVec 4) (s : State) : exec (.drw x y n) s =
    .next ((s.setDisp (s.drawSprite x y n.toNat).1).setFlag (b2v (s.drawSprite x y n.toNat).2)) := rfl

theorem b2v_eq_one_iff {c : Bool} : b2v c = 1 ↔ c = true := by cases c <;> decide

/-! What one sprite does -/

theorem State.exists_memReadList_iff (s : State) (base : Addr) (n : Nat) (P : Nat → Byte → Prop) :
    (∃ k b, (s.memReadList base n)[k]? = some b ∧ P k b) ↔ ∃ k < n, P k (s.memRead (base + BitVec.ofNat 12 k)) := by
  simp only [State.memReadList_getElem?]
  constructor
  · rintro ⟨k, b, hb, hP⟩
    split_ifs at hb with hk
    cases hb
    exact ⟨k, hk, hP⟩
  · rintro ⟨k, hk, hP⟩
    exact ⟨k, _, if_pos hk, hP⟩

theorem spriteCovers_iff {s : State} {x y : RegIdx} {n : Nat} {c : Fin 64} {r : Fin 32} :
    SpriteCovers s x y n c r ↔ ∃ row < n, ∃ col < 8, spriteBit (s.memRead (s.i + BitVec.ofNat 12 row)) col = true ∧
      c = spriteCol (s.v x) col ∧ r = spriteRow (s.v y) row := by
  simp only [Fin.ext_iff]
  rfl

/-- A sprite of at most 32 rows flips the pixels that it covers, and the flag is set if one of them was on (R161). -/
theorem State.drawSprite_spec (s : State) (x y : RegIdx) {n : Nat} (hn : n ≤ 32) :
    (∀ c r, (s.drawSprite x y n).1.pixel c r ≠ s.disp.pixel c r ↔ SpriteCovers s x y n c r) ∧
      ((s.drawSprite x y n).2 = true ↔ ∃ c r, SpriteCovers s x y n c r ∧ s.disp.pixel c r = true) := by
  have hlen : 0 + (s.memReadList s.i n).length ≤ 32 := by simpa [State.memReadList] using hn
  obtain ⟨hpixel, hflag⟩ := drawRows_spec (s.v x) (s.v y) 0 (s.memReadList s.i n) (s.disp, false) hlen
  refine ⟨fun c r => ?pixel, ?flag⟩
  case pixel =>
    refine (hpixel c r).trans ((s.exists_memReadList_iff s.i n _).trans ?_)
    simp only [spriteCovers_iff, Nat.zero_add, ← exists_and_right, and_assoc]
  case flag =>
    refine hflag.trans ((or_iff_right Bool.false_ne_true).trans ((s.exists_memReadList_iff s.i n _).trans ?_))
    simp only [spriteCovers_iff, Nat.zero_add]
    constructor
    · rintro ⟨row, hrow, col, hcol, hbit, hon⟩
      exact ⟨_, _, ⟨row, hrow, col, hcol, hbit, rfl, rfl⟩, hon⟩
    · rintro ⟨_, _, ⟨row, hrow, col, hcol, hbit, rfl, rfl⟩, hon⟩
      exact ⟨row, hrow, col, hcol, hbit, hon⟩

theorem toNat_rows_le (n : BitVec 4) : n.toNat ≤ 32 := by
  have := n.isLt
  omega

/-- Settles O46: DRW writes the buffer that `drawSprite_spec` describes, and then its flag. -/
theorem drawFlipsExactlyTheCoveredPixels : Obligations.DrawFlipsExactlyTheCoveredPixels := by
  intro x y n s
  obtain ⟨hpixel, hflag⟩ := s.drawSprite_spec x y (toNat_rows_le n)
  refine ⟨_, exec_drw x y n s, hpixel, fun hon => ?on, fun hoff => ?off,
    (frame_setDisp s _).trans (frame_setV _ 15 _)⟩
  case on => rw [State.setFlag, State.v_setV_self, hflag.mpr hon, b2v, if_pos rfl]
  case off =>
    rw [State.setFlag, State.v_setV_self, Bool.eq_false_iff.mpr (mt hflag.mp hoff), b2v, if_neg Bool.false_ne_true]

/-! The same sprite again -/

theorem exists_spriteBit_iff {b : Byte} : (∃ col < 8, spriteBit b col = true) ↔ b ≠ 0 := by
  constructor
  · rintro ⟨col, -, hbit⟩ rfl
    simp [spriteBit] at hbit
  · intro hne
    by_contra hnone
    refine hne (BitVec.eq_of_getLsbD_eq fun k hk => ?_)
    have hbit : ¬ b.getLsbD (7 - (7 - k)) = true := fun h => hnone ⟨7 - k, by omega, h⟩
    rw [show 7 - (7 - k) = k by omega] at hbit
    simpa using hbit

theorem exists_spriteCovers_iff {s : State} {x y : RegIdx} {n : Nat} :
    (∃ c r, SpriteCovers s x y n c r) ↔ ∃ row < n, s.memRead (s.i + BitVec.ofNat 12 row) ≠ 0 := by
  simp only [spriteCovers_iff, ← exists_spriteBit_iff]
  constructor
  · rintro ⟨_, _, row, hrow, col, hcol, hbit, -⟩
    exact ⟨row, hrow, col, hcol, hbit⟩
  · rintro ⟨row, hrow, col, hcol, hbit⟩
    exact ⟨_, _, row, hrow, col, hcol, hbit, rfl, rfl⟩

/-- Flipping the same pixels a second time undoes the first. -/
theorem Display.eq_of_flipped_twice {d e f : Display} {P : Fin 64 → Fin 32 → Prop}
    (he : ∀ c r, e.pixel c r ≠ d.pixel c r ↔ P c r) (hf : ∀ c r, f.pixel c r ≠ e.pixel c r ↔ P c r) : f = d := by
  refine Display.ext_pixel fun c r => ?_
  by_cases hP : P c r
  · rw [Bool.eq_not.mpr ((hf c r).mpr hP), Bool.eq_not.mpr ((he c r).mpr hP), Bool.not_not]
  · exact (not_not.mp (mt (hf c r).mp hP)).trans (not_not.mp (mt (he c r).mp hP))

/-- Settles O47: both drawings flip the same pixels; from a clear buffer these are the ones that the second finds
on, and there is one exactly when some sprite byte has a set bit. -/
theorem drawingTwiceRestoresTheBuffer : Obligations.DrawingTwiceRestoresTheBuffer := by
  intro x y n s t b hexec hdisp hx hy hi hmem
  obtain rfl := Host.Outcome.next.inj ((exec_drw x y n s).symm.trans hexec)
  obtain ⟨hpixel, -⟩ := s.drawSprite_spec x y (toNat_rows_le n)
  obtain ⟨hpixel', hflag⟩ := b.drawSprite_spec x y (toNat_rows_le n)
  have hcovers : ∀ c r, SpriteCovers b x y n.toNat c r ↔ SpriteCovers s x y n.toNat c r := fun c r => by
    simp only [SpriteCovers, hx, hy, hi, hmem]
  have hdisp : b.disp = (s.drawSprite x y n.toNat).1 := hdisp
  simp only [hcovers, hdisp] at hpixel' hflag
  refine ⟨_, exec_drw x y n b, Display.eq_of_flipped_twice hpixel hpixel', fun hclear => ?_⟩
  simp only [hclear, Display.pixel_clear, ne_eq, Bool.not_eq_false] at hpixel
  simp only [hpixel, and_self] at hflag
  rw [State.setFlag, State.v_setV_self, b2v_eq_one_iff, hflag, exists_spriteCovers_iff]

/-- Settles O48: no row is drawn, so the buffer is written back and the flag is 0. -/
theorem drawOfZeroRows : Obligations.DrawOfZeroRows := fun x y s =>
  ⟨_, exec_drw x y 0 s, State.v_setV_self _ 15 0, frame_setV s 15 0⟩

end Sys2Proof.Machine

/-! A store that the next fetch reads (20_memory.md section 6). -/

namespace Sys2Proof.Machine

/-- Settles O58: the run of bytes from I on holds Vk at offset k, where pc points, and the next register after it. -/
theorem storeIsSeenByTheNextFetch : Obligations.StoreIsSeenByTheNextFetch := by
  intro x k l s t hexec hl hlx hpc
  obtain rfl := Host.Outcome.next.inj ((exec_storeRegs x s).symm.trans hexec)
  have hlen : (s.regsUpTo x).length ≤ 4096 := by rw [s.length_regsUpTo]; omega
  have hstored {r : RegIdx} (hr : r ≤ x) :
      (s.memWriteList s.i (s.regsUpTo x)).memRead (s.i + BitVec.ofNat 12 r.val) = s.v r :=
    s.memRead_memWriteList_offset s.i hlen (s.getElem?_regsUpTo hr)
  have hpc' : (s.memWriteList s.i (s.regsUpTo x)).pc = s.i + BitVec.ofNat 12 k.val := by
    rw [State.memWriteList_eq]
    exact hpc
  have hnext : s.i + BitVec.ofNat 12 k.val + 1 = s.i + BitVec.ofNat 12 l.val := by
    rw [hl, BitVec.add_assoc, BitVec.ofNat_add]
    rfl
  have hlt : k < l := Fin.lt_def.mpr (by omega)
  rw [State.toNat_fetch, State.setI_pc, State.setI_memRead, State.setI_memRead, hpc', hnext,
    hstored (hlt.le.trans hlx), hstored hlx]

end Sys2Proof.Machine
